-- ==== Sys2Proof/Word.lean ====
section
/-! DEFINITION. The field-element word, the modulus and the record shapes of the two extensions
(spec/00_scope.md R3, R8; spec/30_encoding.md R60 to R62). -/

namespace Sys2Proof

/-- Every operand word, result word and internal sum: `XLEN = 32` bits (R8, R60). -/
abbrev Word := BitVec 32

/-- The modulus, the Mersenne prime 2^31 − 1 (R3). -/
abbrev M31 : Nat := 2147483647

/-- The modulus as a word: the mask of `fold` and the bias of the subtractor (R69). -/
abbrev m31Word : Word := 0x7FFFFFFF#32

/-- A word is canonical when it lies in [0, M31 − 1] (R60). -/
def canonical (w : Word) : Bool := decide (w.toNat < M31)

/-- One vector of lanes, lane 0 first (R22). The hardware's vectors have exactly NLANE lanes, which
`WellFormed.lean` checks. -/
abbrev Vec := List Word

/-- An element of the inner complex extension: real and imaginary part (R62, R150). -/
structure Pair where
  re : Word
  im : Word
deriving DecidableEq, Repr

/-- An element of the degree-4 extension, A0 first (R62). -/
structure Tuple where
  a0 : Word
  a1 : Word
  a2 : Word
  a3 : Word
deriving DecidableEq, Repr

/-- A tuple is canonical when its four words are (R62). -/
def Tuple.canonical (t : Tuple) : Bool :=
  Sys2Proof.canonical t.a0 && Sys2Proof.canonical t.a1 &&
    Sys2Proof.canonical t.a2 && Sys2Proof.canonical t.a3

/-- A base-field operation applied to the components of two tuples: the source's `add_tuplewise` (R77). -/
def Tuple.map2 (f : Word → Word → Word) (s t : Tuple) : Tuple :=
  ⟨f s.a0 t.a0, f s.a1 t.a1, f s.a2 t.a2, f s.a3 t.a3⟩

end Sys2Proof
end

