-- ==== Sys2Proof/Config.lean ====
section
/-! DEFINITION. What a build of the CORE fixes (spec/00_scope.md R9) and the free values of the model:
constants without a body, so that nothing proved depends on a value of them. -/

namespace Sys2Proof

/-- How many tuples a vector has beyond its first one. OPAQUE: NLANE is an open parameter (R9, U10).
Log 1, safe. -/
opaque Config.moreTuples : Nat

/-- `NLANE`, the number of lanes of each vector: at least 4 and a multiple of 4, whatever
`Config.moreTuples` is (R9). -/
def Config.nlane : Nat := 4 * (Config.moreTuples + 1)

/-- How many commands the queue holds beyond one. OPAQUE: DEPTH is an open parameter (R9, U9).
Log 2, safe. -/
opaque Config.moreDepth : Nat

/-- `DEPTH`, the largest number of commands in flight: at least 1 (R9). -/
def Config.depth : Nat := Config.moreDepth + 1

/-- The free 32-bit draw of R73, U1 and U2: the result word that depends on a non-canonical operand
word. Applied to the counter `draws` of State, so that a repeat need not give the same word.
Log 3, safe. -/
opaque Config.freeWord : Nat → Word

/-- How many edges `cmd_ready` stays low once there is room (R206: "within a finite number of
cycles"). Applied to the counter `ticks` of State. Log 5, safe. -/
opaque Config.readyDelay : Nat → Nat

/-- How many edges the head of the queue waits before `rsp_valid` is raised with it: `LAT(op)` of R9
and every other finite schedule (R216). Applied to the counter `ticks` of State. Log 5, safe. -/
opaque Config.rspDelay : Nat → Nat

end Sys2Proof
end

