-- ==== Sys2Proof/Syntax.lean ====
section
/-! DEFINITION. The commands of the CORE as presented at the port, and the instructions they stand for:
one constructor per row of spec/opcode_table.json (spec/30_encoding.md R65, R71, R72). -/

namespace Sys2Proof

/-- A command: the record of three fields presented on the command port (R65), and an entry of the
in-flight queue exactly as accepted (R29). -/
structure Cmd where
  op : BitVec 3
  x : Vec
  y : Vec
deriving DecidableEq, Repr

/-- The operation map (R71) with the two reserved values (R72). Each constructor carries both operand
vectors of the command: POW5 and SUM ignore `y` (R70), which is still a field of the command. -/
inductive Instr where
  /-- `op = 0`, elementwise (R100). -/
  | add (x y : Vec)
  /-- `op = 1`, elementwise (R110). -/
  | sub (x y : Vec)
  /-- `op = 2`, elementwise (R120). -/
  | mul (x y : Vec)
  /-- `op = 3`, elementwise on `x` (R130). -/
  | pow5 (x y : Vec)
  /-- `op = 4`, reduction of `x` (R140). -/
  | sum (x y : Vec)
  /-- `op = 5`, tuplewise (R152). -/
  | mulext (x y : Vec)
  /-- `op = 6`, reserved (R72). -/
  | reserved6 (x y : Vec)
  /-- `op = 7`, reserved (R72). -/
  | reserved7 (x y : Vec)
deriving DecidableEq, Repr

end Sys2Proof
end

