-- ==== Sys2Proof/WellFormed.lean ====
section
/-! DEFINITION. What the ports guarantee of a build and of a command: the constraints of
spec/00_scope.md R9 and the vectors of exactly NLANE lanes (spec/30_encoding.md R64, R65). -/

namespace Sys2Proof

/-- The constraints on the open parameters: `NLANE >= 4`, `NLANE mod 4 = 0`, `DEPTH >= 1` (R9). -/
def paramsOk (nlane depth : Nat) : Bool := 4 ≤ nlane && nlane % 4 == 0 && 1 ≤ depth

/-- A vector of exactly `n` lanes (R22). -/
def vecOk (n : Nat) (v : Vec) : Bool := v.length == n

/-- A command whose two operand vectors have exactly `n` lanes (R65). -/
def Cmd.wfAt (n : Nat) (c : Cmd) : Bool := vecOk n c.x && vecOk n c.y

/-- A command of this build. -/
def Cmd.wf (c : Cmd) : Bool := c.wfAt Config.nlane

/-- An instruction whose two operand vectors have exactly `n` lanes (R65). -/
def Instr.wfAt (n : Nat) : Instr → Bool
  | .add x y => vecOk n x && vecOk n y
  | .sub x y => vecOk n x && vecOk n y
  | .mul x y => vecOk n x && vecOk n y
  | .pow5 x y => vecOk n x && vecOk n y
  | .sum x y => vecOk n x && vecOk n y
  | .mulext x y => vecOk n x && vecOk n y
  | .reserved6 x y => vecOk n x && vecOk n y
  | .reserved7 x y => vecOk n x && vecOk n y

/-- An instruction of this build. -/
def Instr.wf (i : Instr) : Bool := i.wfAt Config.nlane

end Sys2Proof
end

