-- ==== Sys2Proof/Decode.lean ====
section
/-! DEFINITION. The command string `cmd_y ∥ cmd_x ∥ op` of spec/30_encoding.md R65, the operation map
R71, the lane order of spec/20_memory.md R42, and the encoder. A string of bits is the number it
spells, bit 0 least significant (spec/00_scope.md R11). -/

namespace Sys2Proof

/-- The width of every command: `3 + 64·NLANE` bits (R65). -/
def cmdWidth (n : Nat) : Nat := 3 + 64 * n

/-- The first `n` lanes of a bus: lane `i` is bits `[32i+31 : 32i]` (R31, R42). -/
def lanesOf : Nat → Nat → Vec
  | 0, _ => []
  | n + 1, v => BitVec.ofNat 32 v :: lanesOf n (v / 2 ^ 32)

/-- The number on a bus that carries the lanes, lane 0 in the least significant bits (R42). -/
def busOf : Vec → Nat
  | [] => 0
  | w :: ws => w.toNat + 2 ^ 32 * busOf ws

/-- The three fields of a command string: `op` in the three least significant bits, then `cmd_x`, then
`cmd_y` (R65). -/
def cmdOfBits (n v : Nat) : Cmd :=
  { op := BitVec.ofNat 3 v
    x := lanesOf n (v / 2 ^ 3)
    y := lanesOf n (v / 2 ^ (3 + 32 * n)) }

/-- The operation map (R71, R72): all eight values of the 3-bit field select a constructor. -/
def decodeCmd (c : Cmd) : Instr :=
  match c.op.toNat with
  | 0 => .add c.x c.y
  | 1 => .sub c.x c.y
  | 2 => .mul c.x c.y
  | 3 => .pow5 c.x c.y
  | 4 => .sum c.x c.y
  | 5 => .mulext c.x c.y
  | 6 => .reserved6 c.x c.y
  | _ => .reserved7 c.x c.y

/-- Why a string of bits is no command. -/
inductive DecodeError where
  /-- A bit above `3 + 64·NLANE` is set: every command has that one width (R65). Raised by the decoder
  of strings only, never by the machine, whose port has no such bits. Safe. -/
  | longerThanCommand
deriving DecidableEq, Repr

/-- No bit at or above `3 + 64·n` is set: the highest bit set, counted in lane pairs after `op`, is
below lane pair `n` (for `n` at least 1). -/
def fitsCommand (n v : Nat) : Bool := decide ((Nat.log2 v - 3) / 64 < n)

/-- The decoder, total on every string. -/
def decodeString (n v : Nat) : Except DecodeError Instr :=
  if fitsCommand n v then .ok (decodeCmd (cmdOfBits n v)) else .error .longerThanCommand

/-- The command that stands for an instruction: the operation number of R71 and both vectors. -/
def Instr.toCmd : Instr → Cmd
  | .add x y => { op := 0, x, y }
  | .sub x y => { op := 1, x, y }
  | .mul x y => { op := 2, x, y }
  | .pow5 x y => { op := 3, x, y }
  | .sum x y => { op := 4, x, y }
  | .mulext x y => { op := 5, x, y }
  | .reserved6 x y => { op := 6, x, y }
  | .reserved7 x y => { op := 7, x, y }

/-- The string `cmd_y ∥ cmd_x ∥ op` of a command (R65). -/
def bitsOfCmd (n : Nat) (c : Cmd) : Nat :=
  c.op.toNat + 2 ^ 3 * (busOf c.x + 2 ^ (32 * n) * busOf c.y)

/-- The encoder: the string of an instruction with `n` lanes (R65, R71). -/
def encode (n : Nat) (i : Instr) : Nat := bitsOfCmd n i.toCmd

/-- The instruction the decoder reads from a string of which the lowest `nbits` bits are those of `w`
and every bit above is 0 (spec/opcode_table.json numbers the bits as R65 does). -/
def decodeTableWord (nbits w : Nat) : Option Instr :=
  match decodeString Config.nlane (w % 2 ^ nbits) with
  | .ok i => some i
  | .error _ => none

end Sys2Proof
end

