-- ==== Sys2Proof/Machine/Flags.lean ====
section
/-! DEFINITION. The CORE has no flags: no condition codes, carry, overflow or sticky bits, and no
operation writes anything as a side effect (spec/10_state.md R25). Its only status bits are the two
handshake outputs; this file says how each is computed for one cycle (R32, R206, R216). -/

namespace Sys2Proof.Machine

/-- There is room for one more command (R29, R30). -/
def hasRoom (q : List Cmd) : Bool := decide (q.length < Config.depth)

/-- `cmd_ready` in this cycle: 1 only with room, and then once the free wait is over (R32, R206). -/
def cmdReadyNow (q : List Cmd) (readyWait : Nat) : Bool := readyWait == 0 && hasRoom q

/-- The wait left after this cycle: it runs while there is room, and a cycle that was ready draws the
next one (R206). Log 5. -/
def readyWaitNext (q : List Cmd) (readyWait ticks : Nat) : Nat :=
  if hasRoom q then
    match readyWait with
    | 0 => Config.readyDelay ticks
    | n + 1 => n
  else readyWait

/-- `rsp_valid` in this cycle: 1 only with a command in the queue; an offer made stays until it is taken
(R32), and a new one is made once the free wait is over (R216). -/
def rspValidNow (q : List Cmd) (rspValid : Bool) (rspWait : Nat) : Bool :=
  !q.isEmpty && (rspValid || rspWait == 0)

/-- The wait left after this cycle: it runs while a command is in the queue and not yet offered, and
making the offer draws the next one (R216). Log 5. -/
def rspWaitNext (q : List Cmd) (rspValid : Bool) (rspWait ticks : Nat) : Nat :=
  if q.isEmpty || rspValid then rspWait
  else
    match rspWait with
    | 0 => Config.rspDelay ticks
    | n + 1 => n

end Sys2Proof.Machine
end

