-- ==== Sys2Proof/Machine/State.lean ====
section
/-! DEFINITION. The state of the machine as plain data: the in-flight queue and the two handshake
outputs of the CORE (spec/10_state.md R29 to R33), the host that drives the ports, and the counters
through which the model reads its free values. There is no other state (R20, R21, R24 to R28). -/

namespace Sys2Proof.Machine

/-- The input ports as sampled on one rising edge of `clk` (R31). -/
structure PortIn where
  rst : Bool
  cmdValid : Bool
  cmdOp : BitVec 3
  cmdX : Vec
  cmdY : Vec
  rspReady : Bool
deriving DecidableEq, Repr

/-- The state between two rising edges. -/
structure State where
  /-- The queue `Q` of commands accepted and not yet answered, oldest first (R29). -/
  q : List Cmd
  /-- The output `cmd_ready` as the last edge left it (R31, R32). -/
  cmdReady : Bool
  /-- The output `rsp_valid` as the last edge left it: an offer that is still to be taken (R31, R32). -/
  rspValid : Bool
  /-- The host: the input ports at the coming edges, next edge first (R31). Log 4. -/
  inputs : List PortIn
  /-- The host: the command it presents and must hold until it is accepted (R32, R212). Log 6. -/
  waiting : Option Cmd
  /-- The host's record: commands accepted since the last reset, oldest first (R48). Log 8. -/
  issued : List Cmd
  /-- The host's record: responses delivered since the last reset, oldest first (R30, R48). Log 8. -/
  received : List Vec
  /-- The model's own: edges `cmd_ready` may still stay low while there is room (R206). Log 5. -/
  readyWait : Nat
  /-- The model's own: edges the head of `q` may still wait before it is offered (R216). Log 5. -/
  rspWait : Nat
  /-- The model's own: index of the next free delay. Log 5. -/
  ticks : Nat
  /-- The model's own: index of the next free result word (R73). Log 3. -/
  draws : Nat
deriving DecidableEq, Repr

/-- The machine stops with no fault, ever: "The CORE raises no synchronous exception, for any command
whatever" (R170). The type has no constructor. -/
inductive Fault
deriving DecidableEq, Repr

/-- Why the model gives no meaning to a step. -/
inductive Refusal where
  /-- Raised by an arm of `exec` for an instruction without a meaning; no arm does. Safe. -/
  | notModelled (mnemonic : String)
  /-- Raised by the meanings of the two reserved operation values: "A model **refuses** a command with
  `op` in {6, 7}" (R72, U3). Safe: the hardware answers with unspecified words. Log 7. -/
  | reservedOperation (op : BitVec 3)
  /-- Raised by an edge on which the host has changed or withdrawn a command it presented and that is
  not yet accepted (R32, R212; U7: "`refuse` as a protocol violation by the host"). Safe. Log 6. -/
  | commandChanged
deriving DecidableEq, Repr

/-- The machine right after the last edge with `rst = 1` (R33, R202): the queue empty, both handshake
outputs 0. The host drives nothing yet. The waits are free values, the two counters start at numbers
no claim rests on (logs 3, 4 and 5). -/
def State.reset : State :=
  { q := []
    cmdReady := false
    rspValid := false
    inputs := []
    waiting := none
    issued := []
    received := []
    readyWait := Config.readyDelay 0
    rspWait := Config.rspDelay 0
    ticks := 1
    draws := 0 }

end Sys2Proof.Machine
end

