-- ==== Sys2Proof/Machine/Ops.lean ====
section
/-! DEFINITION. The shared operations: the combinational primitives of spec/40_primitives.md, and what
one rising edge does to the state apart from running an instruction (spec/10_state.md R30, R32;
spec/70_reset_and_hazards.md R201). There is no memory, no register, no exception to take and none to
return from (R21, R40, R170, R179, R180), so there is no operation for any of them. -/

namespace Sys2Proof.Machine

/-- What a step of this machine answers. -/
abbrev Outcome := Host.Outcome State Fault Refusal

/-! ## Primitives -/

/-- The mask-and-add `(z & M31) + (z >> 31)` (R90). -/
def fold (z : Word) : Word := (z &&& m31Word) + (z >>> 31)

/-- The final stage that maps the word M31 to 0 (R92). -/
def canon (r : Word) : Word := if r = m31Word then 0 else r

/-- The branch-free form of `canon` given beside it (R92). -/
def canonBranchFree (r : Word) : Word := (r + ((r + 1) >>> 31)) &&& m31Word

/-- The unsigned 32 by 32 to 64-bit multiply, low half and high half (R93, R10). -/
def widemul (x y : Word) : Word × Word :=
  let p : BitVec 64 := x.zeroExtend 64 * y.zeroExtend 64
  (p.extractLsb' 0 32, p.extractLsb' 32 32)

/-! ## The response of an instruction -/

/-- The host receives the response `z`, whole, on one edge (R30, R45, R181). The free words drawn for it
are used up, so that a repeat draws others (R73). -/
def State.respond (z : Vec) (s : State) : State :=
  { s with received := s.received ++ [z], draws := s.draws + z.length }

/-! ## The phases of a rising edge -/

/-- The command on the input ports (R65). -/
def PortIn.cmd (p : PortIn) : Cmd := { op := p.cmdOp, x := p.cmdX, y := p.cmdY }

/-- A vector of NLANE zero words. -/
def zeroVec : Vec := List.replicate Config.nlane 0

/-- The input ports when the host's list is used up: it goes on holding a command it presents (R32) and
does nothing else. Log 4. -/
def quietPins (waiting : Option Cmd) : PortIn :=
  match waiting with
  | some c => ⟨false, true, c.op, c.x, c.y, false⟩
  | none => ⟨false, false, 0, zeroVec, zeroVec, false⟩

/-- The input ports on the next rising edge. -/
def State.pins (s : State) : PortIn :=
  match s.inputs with
  | p :: _ => p
  | [] => quietPins s.waiting

/-- The state once the input ports have been sampled. -/
def State.sampled (s : State) : State := { s with inputs := s.inputs.tail }

/-- The host keeps the command it presents: what waited on the last edge is presented unchanged (R32,
R212). -/
def State.keepsCommand (p : PortIn) (s : State) : Bool :=
  match s.waiting with
  | none => true
  | some c => p.cmdValid && p.cmd == c

/-- The CORE drives its two outputs for the cycle that ends with the edge (R32, R206, R216). -/
def State.drive (s : State) : State :=
  { s with
    cmdReady := cmdReadyNow s.q s.readyWait
    readyWait := readyWaitNext s.q s.readyWait s.ticks
    rspValid := rspValidNow s.q s.rspValid s.rspWait
    rspWait := rspWaitNext s.q s.rspValid s.rspWait s.ticks
    ticks := s.ticks + 1 }

/-- The head of the queue leaves it and its offer is over: `Q <- tail(Q)` of Deliver (R30). -/
def State.popHead (s : State) : State := { s with q := s.q.tail, rspValid := false }

/-- Accept: `Q <- Q ++ [(op, X, Y)]` on an edge with `cmd_valid = 1` and `cmd_ready = 1` (R30, R32). A
command presented and not accepted waits; without one the command ports are not read (U5). -/
def State.acceptFrom (p : PortIn) (s : State) : State :=
  if p.cmdValid then
    if s.cmdReady then
      { s with q := s.q ++ [p.cmd], issued := s.issued ++ [p.cmd], cmdReady := false, waiting := none }
    else { s with waiting := some p.cmd }
  else { s with waiting := none }

/-- An edge with `rst = 1`: the queue becomes empty, `rsp_valid` and `cmd_ready` become 0, unanswered
commands are lost (R201). The host's records start again, since R48 counts from the last reset, and
the host no longer has to hold a command (log 6). The waits are free again (R206). -/
def State.resetEdge (s : State) : State :=
  { s with
    q := []
    cmdReady := false
    rspValid := false
    waiting := none
    issued := []
    received := []
    readyWait := Config.readyDelay s.ticks
    rspWait := Config.rspDelay s.ticks
    ticks := s.ticks + 1 }

/-- Go on after a next state; a refusal ends the edge. -/
def thenNext (o : Outcome) (f : State → State) : Outcome :=
  match o with
  | .next s => .next (f s)
  | .fault r => .fault r
  | .refused r => .refused r

end Sys2Proof.Machine
end

