-- ==== Sys2Proof/Machine/Operands.lean ====
section
/-! DEFINITION. The operand forms: the three lane semantics of spec/30_encoding.md R67, each with the
free draws of R73 for the result words that depend on a non-canonical operand word. The free word of
lane `i` of a response is `Config.freeWord (d + i)`, with `d` the counter `draws`. Log 3. -/

namespace Sys2Proof.Machine

/-- One lane of a two-operand elementwise operation (R67 a, R73). -/
def lane2 (f : Word → Word → Word) (d : Nat) (a b : Word) : Word :=
  if canonical a && canonical b then f a b else Config.freeWord d

/-- One lane of a one-operand elementwise operation (R67 a, R73). -/
def lane1 (f : Word → Word) (d : Nat) (a : Word) : Word :=
  if canonical a then f a else Config.freeWord d

/-- Elementwise on `X` and `Y`: `Z[i]` from lane `i` alone (R67 a, R68). -/
def elementwise2 (f : Word → Word → Word) : Nat → Vec → Vec → Vec
  | d, a :: xs, b :: ys => lane2 f d a b :: elementwise2 f (d + 1) xs ys
  | _, _, _ => []

/-- Elementwise on `X` alone (R67 a, R70). -/
def elementwise1 (f : Word → Word) : Nat → Vec → Vec
  | d, a :: xs => lane1 f d a :: elementwise1 f (d + 1) xs
  | _, [] => []

/-- Reduction of all lanes of `X`: the scalar on lane 0 and 0 on every other lane (R67 b, R140). -/
def reduction (f : Vec → Word) (d : Nat) (x : Vec) : Vec :=
  (if x.all canonical then f x else Config.freeWord d) :: List.replicate (x.length - 1) 0

/-- One tuple of a tuplewise operation: an offending word in either operand leaves all four result words
free (R73). -/
def tuple2 (f : Tuple → Tuple → Tuple) (d : Nat) (a b : Tuple) : Tuple :=
  if a.canonical && b.canonical then f a b
  else ⟨Config.freeWord d, Config.freeWord (d + 1), Config.freeWord (d + 2), Config.freeWord (d + 3)⟩

/-- Tuplewise on `X` and `Y`: tuple `k` is lanes `4k` to `4k+3`, `Z[4k..4k+3]` from tuple `k` alone
(R42, R67 c, R68). -/
def tuplewise2 (f : Tuple → Tuple → Tuple) : Nat → Vec → Vec → Vec
  | d, a0 :: a1 :: a2 :: a3 :: xs, b0 :: b1 :: b2 :: b3 :: ys =>
    let t := tuple2 f d ⟨a0, a1, a2, a3⟩ ⟨b0, b1, b2, b3⟩
    t.a0 :: t.a1 :: t.a2 :: t.a3 :: tuplewise2 f (d + 4) xs ys
  | _, _, _ => []

/-- Tuple `k` of a vector: lanes `4k, 4k+1, 4k+2, 4k+3`, A0 on the lowest (R42, R62). -/
def tupleAt : Vec → Nat → Option Tuple
  | a0 :: a1 :: a2 :: a3 :: _, 0 => some ⟨a0, a1, a2, a3⟩
  | _ :: _ :: _ :: _ :: rest, k + 1 => tupleAt rest k
  | _, _ => none

end Sys2Proof.Machine
end

