-- ==== Sys2Proof/Machine/Adder.lean ====
section
/-! DEFINITION. M31_modular_adder and the operation ADD (spec/41_adder.md), with the modular double that
is built from the adder (spec/40_primitives.md R94). -/

namespace Sys2Proof.Machine

/-- The unit: 32-bit sum, one fold, `canon` (R101, R103). -/
def adder (x y : Word) : Word := canon (fold (x + y))

/-- `DBL(v) = ADD(v, v)` (R94). -/
def double (v : Word) : Word := adder v v

/-- ADD: `Z[i] <- ADD(X[i], Y[i])` for every lane (R100, R71). -/
def execAdd (x y : Vec) (s : State) : Outcome :=
  .next (s.respond (elementwise2 adder s.draws x y))

end Sys2Proof.Machine
end

