-- ==== Sys2Proof/Machine/Multiplier.lean ====
section
/-! DEFINITION. M31_modular_multiplier and the operation MUL (spec/43_multiplier.md). -/

namespace Sys2Proof.Machine

/-- The three-term sum `(z1 & M31) + (z1 >> 31) + 2·z2` before the second fold, the doubling a left shift
by one (R121). -/
def firstFold (z : Word × Word) : Word := (z.1 &&& m31Word) + (z.1 >>> 31) + (z.2 <<< 1)

/-- The unit: one wide multiply and two folds, no `canon` (R121, R123, R124). -/
def multiplier (x y : Word) : Word := fold (firstFold (widemul x y))

/-- MUL: `Z[i] <- MUL(X[i], Y[i])` for every lane (R120, R71). -/
def execMul (x y : Vec) (s : State) : Outcome :=
  .next (s.respond (elementwise2 multiplier s.draws x y))

end Sys2Proof.Machine
end

