-- ==== Sys2Proof/Machine/Subtractor.lean ====
section
/-! DEFINITION. M31_modular_subtractor and the operation SUB (spec/42_subtractor.md). -/

namespace Sys2Proof.Machine

/-- The unit: add the bias M31, subtract, one fold, `canon` (R111, R113). -/
def subtractor (x y : Word) : Word := canon (fold ((x + m31Word) - y))

/-- SUB: `Z[i] <- SUB(X[i], Y[i])` for every lane (R110, R71). -/
def execSub (x y : Vec) (s : State) : Outcome :=
  .next (s.respond (elementwise2 subtractor s.draws x y))

end Sys2Proof.Machine
end

