-- ==== Sys2Proof/Machine/ExtMultiplier.lean ====
section
/-! DEFINITION. M31_extension_field_multiplier and the operation MULEXT (spec/46_ext_multiplier.md), node
by node under the spec's names. -/

namespace Sys2Proof.Machine

/-- The nodes of the helper `multiply_complex` (R150). -/
structure ComplexNodes where
  low : Word
  high : Word
  sx : Word
  sy : Word
  med : Word
  lh : Word
  out : Pair
deriving DecidableEq, Repr

/-- The dataflow of the helper (R150). -/
def complexNodes (x0 x1 y0 y1 : Word) : ComplexNodes :=
  let low := multiplier x0 y0
  let high := multiplier x1 y1
  let sx := adder x0 x1
  let sy := adder y0 y1
  let med := multiplier sx sy
  let lh := adder low high
  { low, high, sx, sy, med, lh, out := ⟨subtractor low high, subtractor med lh⟩ }

/-- `multiply_complex(X0, X1, Y0, Y1) = (R, I)` (R150). -/
def multiplyComplex (x0 x1 y0 y1 : Word) : Pair := (complexNodes x0 x1 y0 y1).out

/-- The nodes between the helpers and the result (R152, R153). -/
structure ExtNodes where
  ll : Pair
  rr : Pair
  sa : Pair
  sb : Pair
  comb : Pair
  t0 : Word
  d0 : Word
  t1 : Word
  d1 : Word
  u2 : Word
  u3 : Word
  z : Tuple
deriving DecidableEq, Repr

/-- The three complex products of step one and the combine step, bracketed as written (R152, R153). -/
def extNodes (a b : Tuple) : ExtNodes :=
  let ll := multiplyComplex a.a0 a.a1 b.a0 b.a1
  let rr := multiplyComplex a.a2 a.a3 b.a2 b.a3
  let sa : Pair := ⟨adder a.a0 a.a2, adder a.a1 a.a3⟩
  let sb : Pair := ⟨adder b.a0 b.a2, adder b.a1 b.a3⟩
  let comb := multiplyComplex sa.re sa.im sb.re sb.im
  let t0 := subtractor ll.re rr.re
  let d0 := double rr.im
  let t1 := subtractor ll.im rr.im
  let d1 := double rr.re
  let u2 := adder ll.re rr.re
  let u3 := adder ll.im rr.im
  { ll, rr, sa, sb, comb, t0, d0, t1, d1, u2, u3
    z := ⟨adder t0 d0, subtractor t1 d1, subtractor comb.re u2, subtractor comb.im u3⟩ }

/-- The unit: `MULEXT(A, B) = (Z0, Z1, Z2, Z3)` (R153, R159). -/
def extMultiplier (a b : Tuple) : Tuple := (extNodes a b).z

/-- MULEXT: `Z[4k..4k+3] <- MULEXT(X[4k..4k+3], Y[4k..4k+3])` for every tuple (R153, R71). -/
def execMulext (x y : Vec) (s : State) : Outcome :=
  .next (s.respond (tuplewise2 extMultiplier s.draws x y))

end Sys2Proof.Machine
end

