-- ==== Sys2Proof/Machine/Power5.lean ====
section
/-! DEFINITION. M31_power5_unit and the operation POW5 (spec/44_power5.md). -/

namespace Sys2Proof.Machine

/-- The unit: three multipliers in a chain, x², x³ = x²·x, x⁵ = x²·x³ (R131, R133; spec/90_conflicts.md
C2). -/
def power5 (x : Word) : Word :=
  let x2 := multiplier x x
  let x3 := multiplier x2 x
  multiplier x2 x3

/-- POW5: `Z[i] <- POW5(X[i])` for every lane; `Y` is ignored (R130, R70, R71). -/
def execPow5 (x _y : Vec) (s : State) : Outcome :=
  .next (s.respond (elementwise1 power5 s.draws x))

end Sys2Proof.Machine
end

