-- ==== Sys2Proof/Machine/Reserved.lean ====
section
/-! DEFINITION. The reserved operation values 6 and 7 (spec/30_encoding.md R72). Accepting such a command
is like accepting any other; the model refuses it where its response would be computed. -/

namespace Sys2Proof.Machine

/-- "A model **refuses** a command with `op` in {6, 7}: it gives it no meaning and marks the run refused"
(R72, U3). Log 7. -/
def execReserved6 (_x _y : Vec) (_s : State) : Outcome := .refused (.reservedOperation 6)

/-- As `execReserved6`, for the value 7 (R72, U3). Log 7. -/
def execReserved7 (_x _y : Vec) (_s : State) : Outcome := .refused (.reservedOperation 7)

end Sys2Proof.Machine
end

