-- ==== Sys2Proof/Machine/SumTree.lean ====
section
/-! DEFINITION. M31_sum_reduction_tree and the operation SUM (spec/45_sum_tree.md). -/

namespace Sys2Proof.Machine

/-- The next level of the tree: neighbours are added, an odd last node passes through (R141). -/
def treeLevel : Vec → Vec
  | a :: b :: rest => adder a b :: treeLevel rest
  | rest => rest

/-- Levels until one node is left; `levels` bounds how many, and as many as there are leaves is always
enough (R141). -/
def treeFrom : Nat → Vec → Word
  | levels + 1, a :: b :: rest => treeFrom levels (treeLevel (a :: b :: rest))
  | _, a :: _ => a
  | _, [] => 0

/-- The unit: the balanced binary tree of adders over the leaves (R141, R146). -/
def sumTree (x : Vec) : Word := treeFrom x.length x

/-- The reference of R140: `acc_0 = 0`, `acc_(j+1) = ADD(acc_j, X[j])`. -/
def sumChain (x : Vec) : Word := x.foldl adder 0

/-- SUM: `Z[0] <- SUM(X)`, `Z[i] <- 0` for the other lanes; `Y` is ignored (R140, R70, R71). -/
def execSum (x _y : Vec) (s : State) : Outcome :=
  .next (s.respond (reduction sumTree s.draws x))

end Sys2Proof.Machine
end

