-- ==== Sys2Proof/Machine/Dispatch.lean ====
section
/-! DEFINITION. Each instruction to its meaning (spec/30_encoding.md R71). -/

namespace Sys2Proof.Machine

/-- The response of one command is computed and delivered: `exec(op, X, Y)` of R71 inside Deliver (R30). -/
def exec (i : Instr) (s : State) : Host.Outcome State Fault Refusal :=
  match i with
  | .add x y => Sys2Proof.Machine.execAdd x y s
  | .sub x y => Sys2Proof.Machine.execSub x y s
  | .mul x y => Sys2Proof.Machine.execMul x y s
  | .pow5 x y => Sys2Proof.Machine.execPow5 x y s
  | .sum x y => Sys2Proof.Machine.execSum x y s
  | .mulext x y => Sys2Proof.Machine.execMulext x y s
  | .reserved6 x y => Sys2Proof.Machine.execReserved6 x y s
  | .reserved7 x y => Sys2Proof.Machine.execReserved7 x y s

end Sys2Proof.Machine
end

