-- ==== Sys2Proof/Machine/Edge.lean ====
section
/-! DEFINITION. One rising edge of `clk`: reset, or Deliver and then Accept, each when its handshake
completes (spec/10_state.md R30, R32; spec/70_reset_and_hazards.md R201). -/

namespace Sys2Proof.Machine

/-- Deliver, on an edge with `rsp_valid = 1` and `rsp_ready = 1`: the head of the queue is taken and
answered with `exec` of it (R30, R32). Otherwise nothing. -/
def deliverTo (p : PortIn) (s : State) : Outcome :=
  match s.rspValid && p.rspReady, s.q with
  | true, c :: _ => exec (decodeCmd c) s.popHead
  | _, _ => .next s

/-- One rising edge with the sampled input ports `p`. On an edge with `rst = 1` nothing else happens,
"whatever `cmd_valid` and `rsp_ready` are" (R201). Deliver comes before Accept (R32). -/
def edge (p : PortIn) (s : State) : Outcome :=
  if p.rst then .next s.resetEdge
  else if s.keepsCommand p then thenNext (deliverTo p s.drive) (State.acceptFrom p)
  else .refused .commandChanged

/-- The wires `rsp_z` in a cycle: while `rsp_valid = 1`, the response to the head of the queue (R32);
no value while `rsp_valid = 0` (U4) and none for a reserved operation (R72). Log 9. -/
def State.rspZ (s : State) : Option Vec :=
  match s.rspValid, s.q with
  | true, c :: _ =>
    match exec (decodeCmd c) s.popHead with
    | .next t => t.received.getLast?
    | _ => none
  | _, _ => none

/-- The command whose string is `w`, bits above `nbits` 0, cut into its fields (R65). -/
def fetchedCmd (nbits w : Nat) : Cmd := cmdOfBits Config.nlane (w % 2 ^ nbits)

/-- The input ports of a host that only takes a response. -/
def takingPins : PortIn := ⟨false, false, 0, zeroVec, zeroVec, true⟩

end Sys2Proof.Machine
end

