-- ==== Sys2Proof/Machine/Step.lean ====
section
/-! DEFINITION. The step: the next rising edge of `clk` with the input ports the host drives on it. -/

namespace Sys2Proof.Machine

/-- One step is one rising edge (R30, R32). Log 10. -/
def step (s : State) : Host.Outcome State Fault Refusal := edge s.pins s.sampled

/-- The command `w` stands at the head of the queue, offered, and the host takes its response on the next
edge, presenting no command: the very next step runs it. It stands for the Accept that brought the
command in and the wait until it is offered. Log 10. -/
def State.withFetchWord (s : State) (nbits w : Nat) : State :=
  { s with
    q := fetchedCmd nbits w :: s.q.tail
    rspValid := true
    waiting := none
    inputs := takingPins :: s.inputs }

end Sys2Proof.Machine
end

