-- ==== Sys2Proof/Machine/HostArrays.lean ====
section
/-! DEFINITION. The host's side of an array operation, beside the machine (no step uses this file): the
two precondition checks of spec/60_exceptions.md R171 to R173, and cutting and padding arrays into
vectors of NLANE lanes (spec/20_memory.md R42; spec/30_encoding.md R64, R79). -/

namespace Sys2Proof.Machine

/-- The two error classes of the host's dispatch layer. The CORE can raise neither (R173); the names are
labels (R174). Raised by `hostErrors` only. Safe. -/
inductive HostError where
  /-- "inputs not broadcast-compatible, or an extension-array input whose trailing run is not a multiple
  of 4" (R171). -/
  | shapeMismatch
  /-- "inputs not stored as the fixed unsigned integer width the core expects" (R172). -/
  | representationMismatch
deriving DecidableEq, Repr

/-- A flattened host array: the width its elements are stored in, and the elements in row-major order
(R42, R64). -/
structure HostArray where
  width : Nat
  elems : Vec
deriving DecidableEq, Repr

/-- The errors that apply to a binary array operation after broadcasting, `ext` for MULEXT. Both are
listed when both apply: the spec gives no order between them (R178). -/
def hostErrors (ext : Bool) (a b : HostArray) : List HostError :=
  (if a.elems.length = b.elems.length && (!ext || a.elems.length % 4 == 0) then [] else [.shapeMismatch]) ++
  (if a.width = 32 && b.width = 32 then [] else [.representationMismatch])

/-- A vector filled up to `n` lanes with the word `pad` (R79). -/
def padTo (n : Nat) (pad : Word) (v : Vec) : Vec := v ++ List.replicate (n - v.length) pad

/-- The first `k` vectors of `n` lanes cut from an array in row-major order, the last one padded (R42,
R79). -/
def cutFirst (n : Nat) (pad : Word) : Nat → Vec → List Vec
  | 0, _ => []
  | k + 1, a => padTo n pad (a.take n) :: cutFirst n pad k (a.drop n)

/-- All vectors an array is cut into: as many as cover every element (R79, R209). -/
def cut (n : Nat) (pad : Word) (a : Vec) : List Vec :=
  cutFirst n pad ((a.length + n - 1) / n) a

end Sys2Proof.Machine
end

