-- ==== Sys2Proof/Safety.lean ====
section
/-! DEFINITION. What claims are stated in: the value functions of the operations (level 1 of
spec/00_scope.md R15, which governs), what it is for a response to answer a command, the two-step
machine of spec/10_state.md R30, and the invariants of a run. No step uses this file. -/

namespace Sys2Proof

open Sys2Proof.Machine

/-! ## Value functions -/

/-- The word of the least non-negative remainder modulo M31 of an integer (R12). -/
def residue (v : Int) : Word := BitVec.ofNat 32 (v % (M31 : Int)).toNat

/-- A word as an unsigned integer (R11). -/
def val (w : Word) : Int := (w.toNat : Int)

/-- `ADD(x, y) = (x + y) mod M31` (R100). -/
def Value.add (x y : Word) : Word := residue (val x + val y)

/-- `SUB(x, y) = (x − y) mod M31` (R110). -/
def Value.sub (x y : Word) : Word := residue (val x - val y)

/-- `MUL(x, y) = (x · y) mod M31` (R120). -/
def Value.mul (x y : Word) : Word := residue (val x * val y)

/-- `POW5(x) = (x^5) mod M31` (R130). -/
def Value.pow5 (x : Word) : Word := residue (val x ^ 5)

/-- `SUM(X) = (X[0] + X[1] + ... ) mod M31` (R140). -/
def Value.sum (x : Vec) : Word := residue (x.map val).sum

/-- The real and imaginary part of `(X0 + X1·i)(Y0 + Y1·i)` with `i² = −1` (R151). -/
def Value.complex (x0 x1 y0 y1 : Word) : Pair :=
  { re := residue (val x0 * val y0 - val x1 * val y1)
    im := residue (val x0 * val y1 + val x1 * val y0) }

/-- The closed form of `MULEXT(A, B)` (R154). -/
def Value.mulext (a b : Tuple) : Tuple :=
  { a0 := residue (val a.a0 * val b.a0 - val a.a1 * val b.a1 - val a.a2 * val b.a2
      + val a.a3 * val b.a3 + 2 * (val a.a2 * val b.a3 + val a.a3 * val b.a2))
    a1 := residue (val a.a0 * val b.a1 + val a.a1 * val b.a0 - val a.a2 * val b.a3
      - val a.a3 * val b.a2 - 2 * (val a.a2 * val b.a2 - val a.a3 * val b.a3))
    a2 := residue (val a.a0 * val b.a2 + val a.a2 * val b.a0 - val a.a1 * val b.a3
      - val a.a3 * val b.a1)
    a3 := residue (val a.a0 * val b.a3 + val a.a3 * val b.a0 + val a.a1 * val b.a2
      + val a.a2 * val b.a1) }

/-! ## Commands and their answers -/

/-- The first operand vector of the command. -/
def Instr.xs : Instr → Vec
  | .add x _ => x
  | .sub x _ => x
  | .mul x _ => x
  | .pow5 x _ => x
  | .sum x _ => x
  | .mulext x _ => x
  | .reserved6 x _ => x
  | .reserved7 x _ => x

/-- The operation value selects one of the six operations (R71). -/
def Instr.isOperation : Instr → Bool
  | .add _ _ => true
  | .sub _ _ => true
  | .mul _ _ => true
  | .pow5 _ _ => true
  | .sum _ _ => true
  | .mulext _ _ => true
  | .reserved6 _ _ => false
  | .reserved7 _ _ => false

/-- The contract of R207: every word on every lane that the operation reads is canonical (R70 says which
lanes that is). -/
def Instr.operandsCanonical : Instr → Bool
  | .add x y => x.all canonical && y.all canonical
  | .sub x y => x.all canonical && y.all canonical
  | .mul x y => x.all canonical && y.all canonical
  | .pow5 x _ => x.all canonical
  | .sum x _ => x.all canonical
  | .mulext x y => x.all canonical && y.all canonical
  | .reserved6 _ _ => true
  | .reserved7 _ _ => true

/-- Lane by lane, where both operand words are canonical the result word is the value (R67 a, R73). -/
def lanesAnswer2 (f : Word → Word → Word) (x y z : Vec) : Prop :=
  ∀ (i : Nat) (a b : Word), x[i]? = some a → y[i]? = some b → canonical a = true → canonical b = true →
    z[i]? = some (f a b)

/-- Lane by lane, where the operand word is canonical the result word is the value (R67 a, R73). -/
def lanesAnswer1 (f : Word → Word) (x z : Vec) : Prop :=
  ∀ (i : Nat) (a : Word), x[i]? = some a → canonical a = true → z[i]? = some (f a)

/-- Tuple by tuple, where both operand tuples are canonical the result tuple is the value (R67 c, R73). -/
def tuplesAnswer (f : Tuple → Tuple → Tuple) (x y z : Vec) : Prop :=
  ∀ k a b, tupleAt x k = some a → tupleAt y k = some b → a.canonical = true → b.canonical = true →
    tupleAt z k = some (f a b)

/-- The scalar on lane 0 where every lane read is canonical, and 0 on every other lane in any case (R140,
R73). -/
def sumAnswers (x z : Vec) : Prop :=
  (x.all canonical = true → z[0]? = some (Value.sum x)) ∧
    ∀ i, 0 < i → i < z.length → z[i]? = some 0

/-- `z` is a response the spec allows to the instruction: as many words as the operand vectors, the
words that R73 leaves defined at their values, the others any word. A reserved operation has none
that a model may give it (R72). -/
def Answers : Instr → Vec → Prop
  | .add x y, z => z.length = x.length ∧ lanesAnswer2 Value.add x y z
  | .sub x y, z => z.length = x.length ∧ lanesAnswer2 Value.sub x y z
  | .mul x y, z => z.length = x.length ∧ lanesAnswer2 Value.mul x y z
  | .pow5 x _, z => z.length = x.length ∧ lanesAnswer1 Value.pow5 x z
  | .sum x _, z => z.length = x.length ∧ sumAnswers x z
  | .mulext x y, z => z.length = x.length ∧ tuplesAnswer Value.mulext x y z
  | .reserved6 _ _, _ => False
  | .reserved7 _ _, _ => False

/-! ## The two-step machine -/

/-- What the two steps of R30 change: the queue, and the host's record of what was accepted and what was
delivered since the last reset. -/
structure TwoStep where
  q : List Cmd
  issued : List Cmd
  received : List Vec
deriving DecidableEq, Repr

/-- The two-step machine inside a state. -/
def TwoStep.of (s : State) : TwoStep := ⟨s.q, s.issued, s.received⟩

/-- `Deliver`: enabled with at least one command in the queue; the host receives an answer to the head
(R30). -/
inductive TwoStep.Deliver : TwoStep → TwoStep → Prop
  | mk (c : Cmd) (rest issued : List Cmd) (received : List Vec) (z : Vec)
      (answers : Answers (decodeCmd c) z) :
      TwoStep.Deliver ⟨c :: rest, issued, received⟩ ⟨rest, issued, received ++ [z]⟩

/-- `Accept(op, X, Y)`: enabled while the queue is shorter than DEPTH (R30). -/
inductive TwoStep.Accept (c : Cmd) : TwoStep → TwoStep → Prop
  | mk (q issued : List Cmd) (received : List Vec) (room : q.length < Config.depth) :
      TwoStep.Accept c ⟨q, issued, received⟩ ⟨q ++ [c], issued ++ [c], received⟩

/-- The queue is empty and nothing is on record: the state after a reset (R201). -/
def TwoStep.afterReset : TwoStep := ⟨[], [], []⟩

/-! ## Invariants of a run -/

/-- At most DEPTH commands in flight; `cmd_ready = 1` only with room, `rsp_valid = 1` only with a command
to answer (R29, R32). -/
def Machine.State.QueueOk (s : State) : Prop :=
  s.q.length ≤ Config.depth ∧ (s.cmdReady = true → s.q.length < Config.depth) ∧
    (s.rspValid = true → s.q ≠ [])

/-- Every vector has NLANE lanes: those the ports bring in (R31), those held, and the responses (R66). -/
def Machine.State.Shaped (s : State) : Prop :=
  (∀ c ∈ s.q, c.wf = true) ∧ (∀ p ∈ s.inputs, p.cmd.wf = true) ∧ (∀ c ∈ s.waiting, c.wf = true) ∧
    (∀ c ∈ s.issued, c.wf = true) ∧ (∀ z ∈ s.received, vecOk Config.nlane z = true)

/-- The commands on record are those answered, then those in the queue, and the k-th response on record
answers the k-th command (R48). -/
def Machine.State.InOrder (s : State) : Prop :=
  ∃ answered, s.issued = answered ++ s.q ∧
    List.Forall₂ (fun c z => Answers (decodeCmd c) z) answered s.received

/-- The host keeps the contract of R207 for every command it presents or has presented, and every word
it has received is canonical (R208). -/
def Machine.State.CanonicalRun (s : State) : Prop :=
  (∀ c ∈ s.q, (decodeCmd c).operandsCanonical = true) ∧
    (∀ p ∈ s.inputs, p.cmdValid = true → (decodeCmd p.cmd).operandsCanonical = true) ∧
    (∀ c ∈ s.waiting, (decodeCmd c).operandsCanonical = true) ∧
    ∀ z ∈ s.received, ∀ w ∈ z, canonical w = true

end Sys2Proof
end

