-- ==== Sys2Proof/Certificates/Slice0/Obligations.lean ====
section
/-! DEFINITION. The statements for the provers. Each docstring names the rule of spec/ it formalises;
where the spec marks that rule as derived by itself, or a clause rests on a log entry, it says so. -/

open Sys2Proof Sys2Proof.Machine

/-! ## Primitives and units -/

/-- R93: the wide multiply is the exact unsigned 64-bit product, in halves. -/
def Obligations.WidemulGivesExactProduct : Prop :=
  ∀ x y : Word,
    (widemul x y).1.toNat = x.toNat * y.toNat % 2 ^ 32 ∧
    (widemul x y).2.toNat = x.toNat * y.toNat / 2 ^ 32 ∧
    (widemul x y).2.toNat * 2 ^ 32 + (widemul x y).1.toNat = x.toNat * y.toNat

/-- R91, which the spec derives from R90: one fold keeps the residue and reaches `[0, M31]`, not
`[0, M31 − 1]`. -/
def Obligations.FoldReachesClosedRange : Prop :=
  ∀ z : Word,
    (fold z).toNat % M31 = z.toNat % M31 ∧
    (z.toNat < M31 → fold z = z) ∧
    (z.toNat = M31 → (fold z).toNat = M31) ∧
    (2 ^ 31 ≤ z.toNat → z.toNat < 2 * M31 →
      (fold z).toNat = z.toNat - M31 ∧ 1 ≤ (fold z).toNat ∧ (fold z).toNat < M31) ∧
    (z.toNat = 0xFFFFFFFE → (fold z).toNat = M31) ∧
    (z.toNat = 0xFFFFFFFF → (fold z).toNat = 2 ^ 31)

/-- R92 (the spec's decision D1): on `[0, M31]`, `canon` gives the canonical word of the same residue,
and its branch-free form agrees. -/
def Obligations.CanonMapsM31ToZero : Prop :=
  ∀ r : Word, r.toNat ≤ M31 →
    (r.toNat = M31 → canon r = 0) ∧ (r.toNat ≠ M31 → canon r = r) ∧
    canonical (canon r) = true ∧ (canon r).toNat % M31 = r.toNat % M31 ∧ canonBranchFree r = canon r

/-- R101 against R100 (R102, derived in the spec): datapath and value function of the adder agree. -/
def Obligations.AdderComputesModularSum : Prop :=
  ∀ x y : Word, canonical x = true → canonical y = true →
    adder x y = Value.add x y ∧ canonical (adder x y) = true

/-- R94: the modular double of a canonical word is `(2·v) mod M31`, canonical. -/
def Obligations.DoubleComputesTwice : Prop :=
  ∀ v : Word, canonical v = true → double v = adder v v ∧ double v = residue (2 * val v) ∧
    canonical (double v) = true

/-- R111 against R110 (R112, derived in the spec): datapath and value function of the subtractor agree;
equal operands give 0. -/
def Obligations.SubtractorComputesModularDifference : Prop :=
  ∀ x y : Word, canonical x = true → canonical y = true →
    subtractor x y = Value.sub x y ∧ canonical (subtractor x y) = true ∧ subtractor x x = 0

/-- R122 and R123 (derived in the spec): no bit of the multiplier's three-term sum is lost, and the sum
is never M31, so no `canon` is needed. -/
def Obligations.MultiplierSumFitsAndAvoidsM31 : Prop :=
  ∀ x y : Word, canonical x = true → canonical y = true →
    (firstFold (widemul x y)).toNat =
      (widemul x y).1.toNat % 2 ^ 31 + (widemul x y).1.toNat / 2 ^ 31 + 2 * (widemul x y).2.toNat ∧
    (firstFold (widemul x y)).toNat ≤ 0xFFFFFFFC ∧
    (firstFold (widemul x y)).toNat ≠ M31

/-- R121 against R120 (R123, derived in the spec): datapath and value function of the multiplier agree. -/
def Obligations.MultiplierComputesModularProduct : Prop :=
  ∀ x y : Word, canonical x = true → canonical y = true →
    multiplier x y = Value.mul x y ∧ canonical (multiplier x y) = true

/-- R131 against R130 (R132, derived in the spec): the unit computes the fifth power, and the schedule
the spec rejected (C2) gives the same word. -/
def Obligations.Power5ComputesFifthPower : Prop :=
  ∀ x : Word, canonical x = true →
    power5 x = Value.pow5 x ∧ canonical (power5 x) = true ∧
    power5 x = multiplier (multiplier (multiplier x x) (multiplier x x)) x

/-- R141 against R140 (R142, derived in the spec): the tree, the left-to-right chain and the sum modulo
M31 are one word. -/
def Obligations.SumTreeEqualsChainAndSum : Prop :=
  ∀ x : Vec, x.all canonical = true →
    sumTree x = sumChain x ∧ sumTree x = Value.sum x ∧ canonical (sumTree x) = true

/-- R142 and R144 (derived in the spec): neither a permutation of the lanes nor zero lanes change the
sum. -/
def Obligations.SumIgnoresLaneOrderAndZeros : Prop :=
  ∀ (x y : Vec) (m : Nat), x.all canonical = true → (x ++ List.replicate m 0).Perm y →
    sumTree y = sumTree x

/-- R95 point 7: the field laws, bit for bit, for canonical words. -/
def Obligations.BaseFieldLawsHoldBitForBit : Prop :=
  ∀ x y z : Word, canonical x = true → canonical y = true → canonical z = true →
    adder x y = adder y x ∧ adder (adder x y) z = adder x (adder y z) ∧
    multiplier x y = multiplier y x ∧
    multiplier (multiplier x y) z = multiplier x (multiplier y z) ∧
    multiplier (adder x y) z = adder (multiplier x z) (multiplier y z) ∧
    adder x 0 = x ∧ multiplier x 1 = x ∧ subtractor (adder x y) y = x

/-- 95_test_vectors.md section 2.8, one reading of S8 (G1, general knowledge in the spec): squaring 31
times gives the square. -/
def Obligations.ThirtyOneSquaringsGiveTheSquare : Prop :=
  ∀ x : Word, canonical x = true → (fun q => multiplier q q)^[31] x = multiplier x x

/-- R150 against R151 (derived in the spec): the helper computes the complex product with `i² = −1`. -/
def Obligations.HelperComputesComplexProduct : Prop :=
  ∀ x0 x1 y0 y1 : Word, canonical x0 = true → canonical x1 = true → canonical y0 = true →
    canonical y1 = true →
    multiplyComplex x0 x1 y0 y1 = Value.complex x0 x1 y0 y1 ∧
    multiplyComplex x0 x1 y0 y1 = multiplyComplex y0 y1 x0 x1

/-- R157: every named node of R150, R152 and R153 is canonical. -/
def Obligations.EveryExtensionNodeIsCanonical : Prop :=
  ∀ a b : Tuple, a.canonical = true → b.canonical = true →
    let n := extNodes a b
    let helpers := [complexNodes a.a0 a.a1 b.a0 b.a1, complexNodes a.a2 a.a3 b.a2 b.a3,
      complexNodes n.sa.re n.sa.im n.sb.re n.sb.im]
    (∀ h ∈ helpers, ∀ w ∈ [h.low, h.high, h.sx, h.sy, h.med, h.lh, h.out.re, h.out.im],
      canonical w = true) ∧
    (∀ w ∈ [n.ll.re, n.ll.im, n.rr.re, n.rr.im, n.sa.re, n.sa.im, n.sb.re, n.sb.im, n.comb.re,
      n.comb.im, n.t0, n.d0, n.t1, n.d1, n.u2, n.u3], canonical w = true) ∧
    n.z.canonical = true

/-- R153 against R154 (derived in the spec): the Karatsuba composition computes the closed form. -/
def Obligations.ExtensionMultiplierMatchesClosedForm : Prop :=
  ∀ a b : Tuple, a.canonical = true → b.canonical = true →
    extMultiplier a b = Value.mulext a b

/-- R154, R158 and R77 (derived in the spec; the laws S4, S12): multiplication in a commutative ring with
identity, distributive over ADD and SUB of the components; on inner-complex numbers it is the helper. -/
def Obligations.ExtensionRingLawsHoldBitForBit : Prop :=
  ∀ a b c : Tuple, a.canonical = true → b.canonical = true → c.canonical = true →
    extMultiplier ⟨1, 0, 0, 0⟩ b = b ∧
    extMultiplier ⟨0, 0, 0, 0⟩ b = ⟨0, 0, 0, 0⟩ ∧
    extMultiplier a b = extMultiplier b a ∧
    extMultiplier (extMultiplier a b) c = extMultiplier a (extMultiplier b c) ∧
    extMultiplier a (b.map2 adder c) = (extMultiplier a b).map2 adder (extMultiplier a c) ∧
    extMultiplier a (b.map2 subtractor c) = (extMultiplier a b).map2 subtractor (extMultiplier a c) ∧
    extMultiplier ⟨a.a0, a.a1, 0, 0⟩ ⟨b.a0, b.a1, 0, 0⟩ =
      ⟨(multiplyComplex a.a0 a.a1 b.a0 b.a1).re, (multiplyComplex a.a0 a.a1 b.a0 b.a1).im, 0, 0⟩

/-! ## The instructions: completion, result and frame

Each statement gives the whole next state: `received` gains one response and every other field is as
before, but for `draws`, the model's own index of free words (log 3), of which nothing is said. There is
no hypothesis on the operand words: a lane with a non-canonical word completes too and only the result
words that depend on it are left open (R73). -/

/-- R100 with the encoding `op = 0`. -/
def Obligations.AddCompletesWithModularSum : Prop :=
  ∀ (x y : Vec) (s : State), (Instr.add x y).wf = true →
    decodeCmd { op := 0, x, y } = .add x y ∧
    ∃ (z : Vec) (d : Nat), exec (.add x y) s =
        .next { s with received := s.received ++ [z], draws := d } ∧
      z.length = Config.nlane ∧
      ∀ (i : Nat) (a b : Word), x[i]? = some a → y[i]? = some b → canonical a = true →
        canonical b = true →
        ∃ w : Word, z[i]? = some w ∧ w.toNat = (a.toNat + b.toNat) % M31

/-- R110 with the encoding `op = 1`. -/
def Obligations.SubCompletesWithModularDifference : Prop :=
  ∀ (x y : Vec) (s : State), (Instr.sub x y).wf = true →
    decodeCmd { op := 1, x, y } = .sub x y ∧
    ∃ (z : Vec) (d : Nat), exec (.sub x y) s =
        .next { s with received := s.received ++ [z], draws := d } ∧
      z.length = Config.nlane ∧
      ∀ (i : Nat) (a b : Word), x[i]? = some a → y[i]? = some b → canonical a = true →
        canonical b = true →
        ∃ w : Word, z[i]? = some w ∧
          w.toNat = if b.toNat ≤ a.toNat then a.toNat - b.toNat else a.toNat + M31 - b.toNat

/-- R120 with the encoding `op = 2`. -/
def Obligations.MulCompletesWithModularProduct : Prop :=
  ∀ (x y : Vec) (s : State), (Instr.mul x y).wf = true →
    decodeCmd { op := 2, x, y } = .mul x y ∧
    ∃ (z : Vec) (d : Nat), exec (.mul x y) s =
        .next { s with received := s.received ++ [z], draws := d } ∧
      z.length = Config.nlane ∧
      ∀ (i : Nat) (a b : Word), x[i]? = some a → y[i]? = some b → canonical a = true →
        canonical b = true →
        ∃ w : Word, z[i]? = some w ∧ w.toNat = a.toNat * b.toNat % M31

/-- R130 with the encoding `op = 3`: `y` does not occur in the result. -/
def Obligations.Pow5CompletesWithFifthPower : Prop :=
  ∀ (x y : Vec) (s : State), (Instr.pow5 x y).wf = true →
    decodeCmd { op := 3, x, y } = .pow5 x y ∧
    ∃ (z : Vec) (d : Nat), exec (.pow5 x y) s =
        .next { s with received := s.received ++ [z], draws := d } ∧
      z.length = Config.nlane ∧
      ∀ (i : Nat) (a : Word), x[i]? = some a → canonical a = true →
        ∃ w : Word, z[i]? = some w ∧ w.toNat = a.toNat ^ 5 % M31

/-- R140 with the encoding `op = 4` (lane 0 and the zeros are the spec's decision D7): the zeros stand
even where a non-canonical word leaves lane 0 open. -/
def Obligations.SumCompletesWithModularSum : Prop :=
  ∀ (x y : Vec) (s : State), (Instr.sum x y).wf = true →
    decodeCmd { op := 4, x, y } = .sum x y ∧
    ∃ (z : Vec) (d : Nat), exec (.sum x y) s =
        .next { s with received := s.received ++ [z], draws := d } ∧
      z.length = Config.nlane ∧
      (x.all canonical = true →
        ∃ w : Word, z[0]? = some w ∧ w.toNat = (x.map BitVec.toNat).sum % M31 ∧ w = sumChain x) ∧
      ∀ i : Nat, 0 < i → i < Config.nlane → z[i]? = some 0

/-- R153 through its closed form R154 (derived in the spec), with the encoding `op = 5`. -/
def Obligations.MulextCompletesWithTupleProducts : Prop :=
  ∀ (x y : Vec) (s : State), (Instr.mulext x y).wf = true →
    decodeCmd { op := 5, x, y } = .mulext x y ∧
    ∃ (z : Vec) (d : Nat), exec (.mulext x y) s =
        .next { s with received := s.received ++ [z], draws := d } ∧
      z.length = Config.nlane ∧
      ∀ k : Nat, k < Config.nlane / 4 →
        ∃ a b c : Tuple, tupleAt x k = some a ∧ tupleAt y k = some b ∧ tupleAt z k = some c ∧
          (a.canonical = true → b.canonical = true → c = Value.mulext a b)

/-- R72 and U3 (the spec's decision D8): a reserved operation value is accepted into the queue like any
other command, and a model refuses it. That the refusal falls on the edge that delivers its response is
the model's deduction (log 7), not the spec's. An accept on an edge that also delivers is Accept after
Deliver, as `StepRunsTheDecodedCommand` says. -/
def Obligations.ReservedOperationIsAcceptedThenRefused : Prop :=
  ∀ (c : Cmd), c.op = 6 ∨ c.op = 7 →
    (∀ s : State, exec (decodeCmd c) s = .refused (.reservedOperation c.op)) ∧
    (∀ (p : PortIn) (s : State), p.rst = false → p.cmdValid = true → p.cmd = c → p.rspReady = false →
      s.keepsCommand p = true → s.drive.cmdReady = true →
      ∃ t, edge p s = .next t ∧ t.q = s.q ++ [c]) ∧
    (∀ (p : PortIn) (s : State) (rest : List Cmd), p.rst = false → p.rspReady = true →
      s.keepsCommand p = true → s.q = c :: rest → s.drive.rspValid = true →
      edge p s = .refused (.reservedOperation c.op))

/-- R70 and R75 (the spec's decision D7): POW5 and SUM ignore `Y`, canonical or not. -/
def Obligations.Pow5AndSumIgnoreSecondOperand : Prop :=
  ∀ (x y y' : Vec) (s : State),
    exec (.pow5 x y) s = exec (.pow5 x y') s ∧ exec (.sum x y) s = exec (.sum x y') s

/-- R67 and R73: a lane of an elementwise operation, or a tuple of MULEXT, has no influence on another
one, whatever words it holds. Where the agreeing lane or tuple itself holds a non-canonical word, R73
makes its result a free draw: that both runs then draw the same word is the model's choice (log 3, the
free word is indexed by `draws` of the one state `s` and the lane), and no rule of the spec. -/
def Obligations.LanesAndTuplesDoNotInteract : Prop :=
  ∀ (x y x' y' : Vec) (s : State), x.length = Config.nlane → y.length = Config.nlane →
    x'.length = Config.nlane → y'.length = Config.nlane →
    (∀ op ∈ [Instr.add, Instr.sub, Instr.mul, Instr.pow5], ∃ z z' : Vec,
      exec (op x y) s = .next (s.respond z) ∧ exec (op x' y') s = .next (s.respond z') ∧
      ∀ i : Nat, x[i]? = x'[i]? → y[i]? = y'[i]? → z[i]? = z'[i]?) ∧
    ∃ z z' : Vec, exec (.mulext x y) s = .next (s.respond z) ∧
      exec (.mulext x' y') s = .next (s.respond z') ∧
      ∀ k : Nat, tupleAt x k = tupleAt x' k → tupleAt y k = tupleAt y' k → tupleAt z k = tupleAt z' k

/-- R20, R47, R61 and R208: with canonical operands the response is a function of the command alone, and
every word of it is canonical, so it may be fed straight back. -/
def Obligations.CanonicalResponseDependsOnCommandAlone : Prop :=
  ∀ i : Instr, i.wf = true → i.isOperation = true → i.operandsCanonical = true →
    ∃ z : Vec, z.length = Config.nlane ∧ (∀ w ∈ z, canonical w = true) ∧ Answers i z ∧
      ∀ s : State, ∃ d : Nat, exec i s = .next { s with received := s.received ++ [z], draws := d }

/-! ## The command port, the queue and the response port -/

/-- R33 and R202: after reset the queue is empty and both handshake outputs are 0. That `rsp_z` then has
no value is the model's choice (log 9). -/
def Obligations.ResetLeavesQueueEmptyAndOutputsLow : Prop :=
  State.reset.q = [] ∧ State.reset.cmdReady = false ∧ State.reset.rspValid = false ∧
    State.reset.rspZ = none

/-- R201 (the spec's decision D14): what an edge with `rst = 1` does to the queue and the two handshake
outputs, whatever `cmd_valid` and `rsp_ready` are. The other clauses rest on the model's choices: `rsp_z`
has no value (log 9), the host's list moves on by one (log 4); no response is delivered since no free
word is drawn (log 3), and no command accepted since neither record has grown (log 8, which starts both
again). -/
def Obligations.ResetEdgeEmptiesTheCore : Prop :=
  ∀ s : State, s.pins.rst = true →
    ∃ t, step s = .next t ∧ t.q = [] ∧ t.rspValid = false ∧ t.cmdReady = false ∧ t.rspZ = none ∧
      t.issued.length ≤ s.issued.length ∧ t.received.length ≤ s.received.length ∧
      t.draws = s.draws ∧ t.inputs = s.inputs.tail

/-- R30 and R32: an edge that completes the response handshake runs the command at the head of the queue
as `exec` of what it decodes to, with the head taken off, and then Accept. -/
def Obligations.StepRunsTheDecodedCommand : Prop :=
  ∀ (s : State) (c : Cmd) (rest : List Cmd) (i : Instr), s.q = c :: rest → decodeCmd c = i →
    i.wf = true → s.pins.rst = false → s.keepsCommand s.pins = true →
    (s.rspValid = true ∨ s.rspWait = 0) → s.pins.rspReady = true →
    (s.sampled.drive.popHead.q = rest ∧ s.sampled.drive.popHead.rspValid = false ∧
      s.sampled.drive.popHead.received = s.received ∧ s.sampled.drive.popHead.draws = s.draws) ∧
    step s = thenNext (exec i s.sampled.drive.popHead) (State.acceptFrom s.pins)

/-- R30 and R65: the command string placed where the step takes its next command is the one that runs
(log 10 says what the placing stands for). -/
def Obligations.FetchedWordIsRun : Prop :=
  ∀ (s : State) (nbits w : Nat) (i : Instr), decodeTableWord nbits w = some i →
    step (s.withFetchWord nbits w) =
      thenNext (exec i (s.withFetchWord nbits w).sampled.drive.popHead) (State.acceptFrom takingPins)

/-- R30 and R32: an edge that completes the command handshake, and not the response handshake, appends
the command exactly as presented. The wait for `cmd_ready` and the host's record are the model's choices
(logs 5 and 8). -/
def Obligations.AcceptAppendsTheCommand : Prop :=
  ∀ s : State, s.pins.rst = false → s.keepsCommand s.pins = true → s.pins.cmdValid = true →
    s.pins.rspReady = false → s.readyWait = 0 → s.q.length < Config.depth →
    ∃ t, step s = .next t ∧
      t.q = s.q ++ [{ op := s.pins.cmdOp, x := s.pins.cmdX, y := s.pins.cmdY }] ∧
      t.issued = s.issued ++ [{ op := s.pins.cmdOp, x := s.pins.cmdX, y := s.pins.cmdY }] ∧
      t.received = s.received ∧ t.draws = s.draws ∧ t.waiting = none

/-- R32: while the CORE is not ready, or full, a presented command is not accepted; it waits. The wait
for `cmd_ready` and the host's fields are the model's choices (logs 5, 6 and 8). -/
def Obligations.CommandWaitsWhileCoreIsNotReady : Prop :=
  ∀ s : State, s.pins.rst = false → s.keepsCommand s.pins = true → s.pins.cmdValid = true →
    s.pins.rspReady = false → (s.readyWait ≠ 0 ∨ Config.depth ≤ s.q.length) →
    ∃ t, step s = .next t ∧ t.q = s.q ∧ t.issued = s.issued ∧ t.received = s.received ∧
      t.waiting = some s.pins.cmd

/-- R32 and U5: while `cmd_valid = 0` the values on `cmd_op`, `cmd_x` and `cmd_y` are ignored. -/
def Obligations.CommandPortsIgnoredWithoutValid : Prop :=
  ∀ (p p' : PortIn) (s : State), p.cmdValid = false → p'.cmdValid = false → p.rst = p'.rst →
    p.rspReady = p'.rspReady → edge p s = edge p' s

/-- R30, R32 and R201: on the queue and the records, every step is a reset, or at most one enabled Deliver
and then at most one enabled Accept, each with its handshake. The model's choices in it: one step is one
edge (log 10), and a reset empties the records (log 8; R201 speaks of the queue only). `Shaped` is an
invariant of its own. -/
def Obligations.EveryEdgeIsDeliverThenAccept : Prop :=
  ∀ s t : State, s.Shaped → step s = .next t →
    (s.pins.rst = true ∧ TwoStep.of t = TwoStep.afterReset) ∨
    (s.pins.rst = false ∧ ∃ m : TwoStep,
      (m = TwoStep.of s ∨ (s.pins.rspReady = true ∧ TwoStep.Deliver (TwoStep.of s) m)) ∧
      (TwoStep.of t = m ∨
        (s.pins.cmdValid = true ∧ TwoStep.Accept s.pins.cmd m (TwoStep.of t))))

/-- R29 and R32: every step keeps the queue within DEPTH, `cmd_ready` low without room and `rsp_valid`
low without a command. -/
def Obligations.EveryStepKeepsQueueBound : Prop :=
  ∀ s t : State, s.QueueOk → step s = .next t → t.QueueOk

/-- R31, R64 and R66: every step keeps every vector at NLANE lanes. -/
def Obligations.EveryStepKeepsLaneCount : Prop :=
  ∀ s t : State, s.Shaped → step s = .next t → t.Shaped

/-- R48 (the spec's decision D6): every step keeps the k-th response after reset the answer to the k-th
command after reset. `Shaped` is an invariant of its own. -/
def Obligations.EveryStepKeepsResponsesInOrder : Prop :=
  ∀ s t : State, s.Shaped → s.InOrder → step s = .next t → t.InOrder

/-- R61, R207 and R208: while the host presents canonical operands only, every word it receives is
canonical. -/
def Obligations.EveryStepKeepsResponsesCanonical : Prop :=
  ∀ s t : State, s.CanonicalRun → step s = .next t → t.CanonicalRun

/-- R33 and R202: the four invariants hold after reset. -/
def Obligations.InvariantsHoldAfterReset : Prop :=
  State.reset.QueueOk ∧ State.reset.Shaped ∧ State.reset.InOrder ∧ State.reset.CanonicalRun

/-- R32: an offered response that is not taken stays offered, with `rsp_z` unchanged (`rsp_z` is a
computed view: log 9). -/
def Obligations.OfferedResponseIsHeld : Prop :=
  ∀ s t : State, s.pins.rst = false → s.pins.rspReady = false → s.sampled.drive.rspValid = true →
    step s = .next t →
    t.rspValid = true ∧ t.drive.rspValid = true ∧ t.q.head? = s.q.head? ∧
      t.drive.rspZ = s.sampled.drive.rspZ

/-- R32 and R45: what the host receives on a completed response handshake is what `rsp_z` carries, whole,
and the command it answers leaves the queue. -/
def Obligations.DeliveredResponseIsTheOneOffered : Prop :=
  ∀ s t : State, s.pins.rst = false → s.pins.rspReady = true → s.sampled.drive.rspValid = true →
    step s = .next t →
    ∃ z, s.sampled.drive.rspZ = some z ∧ t.received = s.received ++ [z] ∧
      (t.q = s.q.tail ∨ t.q = s.q.tail ++ [s.pins.cmd])

/-- R32, R212 and U7: a host that changes or withdraws a command it presents is refused (log 6). -/
def Obligations.ChangedCommandIsRefused : Prop :=
  ∀ (s : State) (c : Cmd), s.waiting = some c → s.pins.rst = false →
    (s.pins.cmdValid = false ∨ s.pins.cmd ≠ c) → step s = .refused .commandChanged

/-- R170: the refusal of a reserved operation value (R72) is the only one for a command, and there is no
fault; that it falls where the response is taken is the model's deduction (log 7). The other stop is the
host's: a command it did not hold (R32, U7: `refuse`; log 6). -/
def Obligations.StepRefusesOnlyReservedOrChanged : Prop :=
  ∀ (s : State) (r : Refusal), step s = .refused r →
    s.pins.rst = false ∧
    ((r = .commandChanged ∧ ∃ c, s.waiting = some c ∧ (s.pins.cmdValid = false ∨ s.pins.cmd ≠ c)) ∨
      ∃ c, s.q.head? = some c ∧ (c.op = 6 ∨ c.op = 7) ∧ r = .reservedOperation c.op ∧
        s.pins.rspReady = true)

/-- R182: whatever the operand bits, a step completes while the host holds what it presents and no
reserved operation value is in the queue. -/
def Obligations.StepCompletesForEveryOperand : Prop :=
  ∀ s : State, (s.pins.rst = true ∨ s.keepsCommand s.pins = true) →
    (∀ c ∈ s.q, (decodeCmd c).isOperation = true) → ∃ t, step s = .next t

/-- R206 and R216 point 1 (the spec's decision D15): a command held is accepted within finitely many
edges while responses are taken. The bound is the model's free waits (log 5). -/
def Obligations.HeldCommandIsAcceptedInFiniteTime : Prop :=
  ∀ (s : State) (c : Cmd) (rest : List PortIn), s.q.length ≤ Config.depth →
    (∀ d ∈ s.q, (decodeCmd d).isOperation = true) → (s.waiting = none ∨ s.waiting = some c) →
    s.inputs = List.replicate (s.rspWait + s.readyWait + 2) ⟨false, true, c.op, c.x, c.y, true⟩ ++ rest →
    ∃ k, k < s.rspWait + s.readyWait + 2 ∧ ∃ t u, Host.Core.run core k s = .next t ∧
      step t = .next u ∧ t.issued = s.issued ∧ u.issued = s.issued ++ [c]

/-- R216 point 2 (the spec's decision D15): the command at the head is offered within finitely many
edges and answered on the first edge thereafter with `rsp_ready = 1`. The bound is the model's free
wait (log 5). -/
def Obligations.AcceptedCommandIsAnsweredInFiniteTime : Prop :=
  ∀ (s : State) (c : Cmd) (queue : List Cmd) (ready : List Bool) (rest : List PortIn),
    s.q = c :: queue → c.wf = true → (decodeCmd c).isOperation = true → s.rspValid = false →
    s.waiting = none → ready.length = s.rspWait →
    s.inputs = ready.map (fun r => ⟨false, false, 0, zeroVec, zeroVec, r⟩) ++ takingPins :: rest →
    ∃ t u z, Host.Core.run core s.rspWait s = .next t ∧ t.drive.rspValid = true ∧ t.q = s.q ∧
      t.received = s.received ∧ step t = .next u ∧ u.q = queue ∧ u.received = s.received ++ [z] ∧
      Answers (decodeCmd c) z

/-! ## Encoding -/

/-- R65 and R71: decoding the string of any instruction with `n` lanes gives the instruction back, with
every bit of both operand vectors. -/
def Obligations.DecodeOfEncodeIsTheInstruction : Prop :=
  ∀ (n : Nat) (i : Instr), 0 < n → i.wfAt n = true → decodeString n (encode n i) = .ok i

/-- R65: every string of `3 + 64·n` bits is the string of one instruction. That a longer one is refused by
name is the model's choice (log 11). -/
def Obligations.EveryStringIsOneCommand : Prop :=
  ∀ n v : Nat, 0 < n →
    (v < 2 ^ (3 + 64 * n) → ∃ i, decodeString n v = .ok i ∧ i.wfAt n = true ∧ encode n i = v) ∧
    (2 ^ (3 + 64 * n) ≤ v → decodeString n v = .error .longerThanCommand)

/-- Words of spec/95_test_vectors.md section 3, written out there: programs P1 to P4, one word for each
operation. -/
def Obligations.WrittenOutCommandStringsDecode : Prop :=
  decodeString 4 0x1d6f345880000002800000008000000103ade68a80000002800000003fffffff0 =
    .ok (.add [2147483646, 0, 5, 123456789] [2, 1, 5, 987654321]) ∧
  decodeString 4 0x1d6f3458800000028000000080000001211d1ae30000000500000000800000009 =
    .ok (.sub [1, 1, 10, 1111111110] [2, 1, 5, 987654321]) ∧
  decodeString 4 0x0000800003ade68abfffffff000000018000800003ade68abfffffff00000001a =
    .ok (.mul [3, 2147483646, 123456789, 65536] [3, 2147483646, 123456789, 65536]) ∧
  decodeString 4 0x000000000000000000000000000000000000800003ade68abfffffff00000001b =
    .ok (.pow5 [3, 2147483646, 123456789, 65536] [0, 0, 0, 0]) ∧
  decodeString 4 0x0000000000000000000000000000000010d49c7985bf3bac9d6f345883ade68ac =
    .ok (.sum [123456789, 987654321, 192837465, 564738291] [0, 0, 0, 0]) ∧
  decodeString 4 0x0000000400000003800000030000000280000002000000018000000100000000d =
    .ok (.mulext [1, 2, 3, 4] [5, 6, 7, 8])

/-- R31 and R42 (the spec's decision D17): lane `i` is bits `[32i+31 : 32i]` of its bus, and the fields of
a command string are `op`, then `cmd_x`, then `cmd_y` (R65). -/
def Obligations.LaneSitsAtItsBits : Prop :=
  ∀ n v i : Nat, i < n →
    (lanesOf n v)[i]? = some (BitVec.ofNat 32 (v / 2 ^ (32 * i))) ∧
    (cmdOfBits n v).op = BitVec.ofNat 3 v ∧
    (cmdOfBits n v).x[i]? = some (BitVec.ofNat 32 (v / 2 ^ (3 + 32 * i))) ∧
    (cmdOfBits n v).y[i]? = some (BitVec.ofNat 32 (v / 2 ^ (3 + 32 * n + 32 * i)))

/-- R42 and R62: tuple `k` is lanes `4k` to `4k+3`, A0 on the lowest. -/
def Obligations.TupleIsFourContiguousLanes : Prop :=
  ∀ (v : Vec) (k : Nat) (t : Tuple), tupleAt v k = some t ↔
    v[4 * k]? = some t.a0 ∧ v[4 * k + 1]? = some t.a1 ∧ v[4 * k + 2]? = some t.a2 ∧
      v[4 * k + 3]? = some t.a3

/-! ## Array operations of the host -/

/-- R42, R79 and R209: the cuts of an array are whole vectors and hold every element once, in order, with
padding only at the end. -/
def Obligations.CutsCoverEveryElementOnce : Prop :=
  ∀ (n : Nat) (pad : Word) (a : Vec), 0 < n →
    (∀ v ∈ cut n pad a, v.length = n) ∧
    ∃ m, m < n ∧ (cut n pad a).flatten = a ++ List.replicate m pad

/-- R145 (derived in the spec): the SUMs of the zero-padded cuts, summed again, are the sum of the whole
array. -/
def Obligations.ChunkedSumEqualsWholeSum : Prop :=
  ∀ (n : Nat) (a : Vec), 0 < n → a.all canonical = true →
    sumTree ((cut n 0 a).map sumTree) = Value.sum a

/-- R47 and R67: an elementwise operation carried out cut by cut is the operation on the whole array,
whatever the lane count and the canonical padding. -/
def Obligations.ElementwiseByCutsEqualsWhole : Prop :=
  ∀ (f : Word → Word → Word) (n d : Nat) (pad : Word) (a b : Vec), 0 < n → a.length = b.length →
    a.all canonical = true → b.all canonical = true → canonical pad = true →
    (((cut n pad a).zipWith (elementwise2 f d) (cut n pad b)).flatten).take a.length =
      a.zipWith f b

/-! ## The response port, with a host that does more -/

/-- R216 point 2 and R182 (log 5 for the bound), with a host that presents commands, or takes what it
likes, meanwhile: the command at the head stays there and is offered after `rspWait` edges without reset,
and answered on an edge with `rsp_ready = 1`, unless the host breaks the hold rule of R32 (log 6). -/
def Obligations.HeadIsOfferedWhateverTheHostPresents : Prop :=
  ∀ (s : State) (c : Cmd) (queue : List Cmd), s.q = c :: queue → c.wf = true →
    (decodeCmd c).isOperation = true → s.rspValid = false →
    (∀ p ∈ s.inputs.take s.rspWait, p.rst = false) →
    Host.Core.run core s.rspWait s = .refused .commandChanged ∨
    ∃ t : State, Host.Core.run core s.rspWait s = .next t ∧ t.drive.rspValid = true ∧ t.q.head? = some c ∧
      t.received = s.received ∧
      (t.pins.rst = false → t.pins.rspReady = true → t.keepsCommand t.pins = true →
        ∃ u z, step t = .next u ∧ u.received = s.received ++ [z] ∧ Answers (decodeCmd c) z)
end

