-- ==== Sys2Proof/Laws/Config.lean ====
section
/-! SUPPORT. The open parameters meet the constraints of spec/00_scope.md R9, whatever the build. -/

namespace Sys2Proof.Config

theorem nlane_ge_four : 4 ≤ nlane := by unfold nlane; omega

theorem nlane_pos : 0 < nlane := by unfold nlane; omega

theorem nlane_mod_four : nlane % 4 = 0 := by unfold nlane; omega

theorem depth_pos : 0 < depth := by unfold depth; omega

theorem params_ok : paramsOk nlane depth = true := by
  simp [paramsOk, nlane_ge_four, nlane_mod_four, Nat.succ_le_of_lt depth_pos]

end Sys2Proof.Config
end

