-- ==== Sys2Proof/Laws/Decode.lean ====
section
/-! SUPPORT. The small lemmas of the lane order, the operation map and well-formedness. -/

namespace Sys2Proof

@[simp] theorem lanesOf_length (n v : Nat) : (lanesOf n v).length = n := by
  induction n generalizing v with
  | zero => rfl
  | succ n ih => simp [lanesOf, ih]

theorem busOf_lt (v : Vec) : busOf v < 2 ^ (32 * v.length) := by
  induction v with
  | nil => simp [busOf]
  | cons w ws ih =>
    have hw := w.isLt
    have hpow : 2 ^ (32 * (w :: ws).length) = 2 ^ 32 * 2 ^ (32 * ws.length) := by
      rw [List.length_cons, Nat.mul_succ, Nat.pow_add, Nat.mul_comm]
    rw [busOf, hpow]
    have := Nat.mul_le_mul_left (2 ^ 32) (Nat.succ_le_of_lt ih)
    rw [Nat.mul_succ] at this
    omega

theorem vecOk_iff {n : Nat} {v : Vec} : vecOk n v = true ↔ v.length = n := by simp [vecOk]

theorem cmd_wf_iff {c : Cmd} :
    c.wf = true ↔ c.x.length = Config.nlane ∧ c.y.length = Config.nlane := by
  simp [Cmd.wf, Cmd.wfAt, vecOk]

/-- The fields of any string cut at this build's width are a command of this build. -/
theorem cmdOfBits_wf (v : Nat) : (cmdOfBits Config.nlane v).wf = true := by
  simp [cmd_wf_iff, cmdOfBits]

/-- A command's two vectors are its instruction's. -/
theorem decodeCmd_wf (c : Cmd) : (decodeCmd c).wf = c.wf := by
  unfold decodeCmd
  split <;> rfl

end Sys2Proof
end

