-- ==== Sys2Proof/Laws/Operands.lean ====
section
/-! SUPPORT. What each operand form gives lane by lane, and how many lanes. -/

namespace Sys2Proof.Machine

variable {f : Word → Word → Word} {g : Word → Word}

@[simp] theorem elementwise2_length (d : Nat) (x y : Vec) :
    (elementwise2 f d x y).length = min x.length y.length := by
  induction x generalizing d y with
  | nil => simp [elementwise2]
  | cons a xs ih =>
    cases y with
    | nil => simp [elementwise2]
    | cons b ys => simp [elementwise2, ih, Nat.succ_min_succ]

@[simp] theorem elementwise1_length (d : Nat) (x : Vec) : (elementwise1 g d x).length = x.length := by
  induction x generalizing d with
  | nil => rfl
  | cons a xs ih => simp [elementwise1, ih]

theorem elementwise2_lane {d i : Nat} {x y : Vec} {a b : Word} (hx : x[i]? = some a)
    (hy : y[i]? = some b) : (elementwise2 f d x y)[i]? = some (lane2 f (d + i) a b) := by
  induction x generalizing d y i with
  | nil => simp at hx
  | cons a' xs ih =>
    cases y with
    | nil => simp at hy
    | cons b' ys =>
      cases i with
      | zero => simp_all [elementwise2]
      | succ i =>
        have := ih (d := d + 1) (i := i) (y := ys) (by simpa using hx) (by simpa using hy)
        simpa [elementwise2, Nat.add_assoc, Nat.add_comm 1 i] using this

theorem elementwise1_lane {d i : Nat} {x : Vec} {a : Word} (hx : x[i]? = some a) :
    (elementwise1 g d x)[i]? = some (lane1 g (d + i) a) := by
  induction x generalizing d i with
  | nil => simp at hx
  | cons a' xs ih =>
    cases i with
    | zero => simp_all [elementwise1]
    | succ i =>
      have := ih (d := d + 1) (i := i) (by simpa using hx)
      simpa [elementwise1, Nat.add_assoc, Nat.add_comm 1 i] using this

@[simp] theorem reduction_length (h : Vec → Word) (d : Nat) (x : Vec) :
    (reduction h d x).length = x.length - 1 + 1 := by
  simp [reduction]

/-- A vector of whole tuples gives a vector of as many words (R44). -/
theorem tuplewise2_length (h : Tuple → Tuple → Tuple) (k d : Nat) (x y : Vec)
    (hx : x.length = 4 * k) (hy : y.length = 4 * k) : (tuplewise2 h d x y).length = 4 * k := by
  induction k generalizing d x y with
  | zero => cases x <;> simp_all [tuplewise2]
  | succ k ih =>
    match x, y, hx, hy with
    | _ :: _ :: _ :: _ :: xs, _ :: _ :: _ :: _ :: ys, hx, hy =>
      have := ih (d + 4) xs ys (by simp at hx; omega) (by simp at hy; omega)
      simp [tuplewise2, this]
      omega
    | [], _, hx, _ => simp at hx
    | [_], _, hx, _ => simp at hx; omega
    | [_, _], _, hx, _ => simp at hx; omega
    | [_, _, _], _, hx, _ => simp at hx; omega
    | _, [], _, hy => simp at hy
    | _, [_], _, hy => simp at hy; omega
    | _, [_, _], _, hy => simp at hy; omega
    | _, [_, _, _], _, hy => simp at hy; omega

theorem tuplewise2_tuple {h : Tuple → Tuple → Tuple} {d k : Nat} {x y : Vec} {a b : Tuple}
    (hx : tupleAt x k = some a) (hy : tupleAt y k = some b) :
    tupleAt (tuplewise2 h d x y) k = some (tuple2 h (d + 4 * k) a b) := by
  induction k generalizing d x y with
  | zero =>
    match x, y, hx, hy with
    | _ :: _ :: _ :: _ :: _, _ :: _ :: _ :: _ :: _, hx, hy => simp_all [tuplewise2, tupleAt]
  | succ k ih =>
    match x, y, hx, hy with
    | _ :: _ :: _ :: _ :: xs, _ :: _ :: _ :: _ :: ys, hx, hy =>
      have := ih (d := d + 4) (x := xs) (y := ys) hx hy
      simp only [tuplewise2, tupleAt, this]
      congr 2
      omega

end Sys2Proof.Machine
end

