-- ==== Sys2Proof/Laws/State.lean ====
section
/-! SUPPORT. One lemma per field of State and per update of it, so that no later proof unfolds a record
update. The conditional update `acceptFrom` is in `Laws/Ops.lean`. -/

namespace Sys2Proof.Machine.State

variable (s : State)

@[simp] theorem respond_q (z : Vec) : (s.respond z).q = s.q := rfl
@[simp] theorem respond_cmdReady (z : Vec) : (s.respond z).cmdReady = s.cmdReady := rfl
@[simp] theorem respond_rspValid (z : Vec) : (s.respond z).rspValid = s.rspValid := rfl
@[simp] theorem respond_inputs (z : Vec) : (s.respond z).inputs = s.inputs := rfl
@[simp] theorem respond_waiting (z : Vec) : (s.respond z).waiting = s.waiting := rfl
@[simp] theorem respond_issued (z : Vec) : (s.respond z).issued = s.issued := rfl
@[simp] theorem respond_received (z : Vec) : (s.respond z).received = s.received ++ [z] := rfl
@[simp] theorem respond_readyWait (z : Vec) : (s.respond z).readyWait = s.readyWait := rfl
@[simp] theorem respond_rspWait (z : Vec) : (s.respond z).rspWait = s.rspWait := rfl
@[simp] theorem respond_ticks (z : Vec) : (s.respond z).ticks = s.ticks := rfl
@[simp] theorem respond_draws (z : Vec) : (s.respond z).draws = s.draws + z.length := rfl

@[simp] theorem sampled_q : (s.sampled).q = s.q := rfl
@[simp] theorem sampled_cmdReady : (s.sampled).cmdReady = s.cmdReady := rfl
@[simp] theorem sampled_rspValid : (s.sampled).rspValid = s.rspValid := rfl
@[simp] theorem sampled_inputs : (s.sampled).inputs = s.inputs.tail := rfl
@[simp] theorem sampled_waiting : (s.sampled).waiting = s.waiting := rfl
@[simp] theorem sampled_issued : (s.sampled).issued = s.issued := rfl
@[simp] theorem sampled_received : (s.sampled).received = s.received := rfl
@[simp] theorem sampled_readyWait : (s.sampled).readyWait = s.readyWait := rfl
@[simp] theorem sampled_rspWait : (s.sampled).rspWait = s.rspWait := rfl
@[simp] theorem sampled_ticks : (s.sampled).ticks = s.ticks := rfl
@[simp] theorem sampled_draws : (s.sampled).draws = s.draws := rfl

@[simp] theorem popHead_q : (s.popHead).q = s.q.tail := rfl
@[simp] theorem popHead_cmdReady : (s.popHead).cmdReady = s.cmdReady := rfl
@[simp] theorem popHead_rspValid : (s.popHead).rspValid = false := rfl
@[simp] theorem popHead_inputs : (s.popHead).inputs = s.inputs := rfl
@[simp] theorem popHead_waiting : (s.popHead).waiting = s.waiting := rfl
@[simp] theorem popHead_issued : (s.popHead).issued = s.issued := rfl
@[simp] theorem popHead_received : (s.popHead).received = s.received := rfl
@[simp] theorem popHead_readyWait : (s.popHead).readyWait = s.readyWait := rfl
@[simp] theorem popHead_rspWait : (s.popHead).rspWait = s.rspWait := rfl
@[simp] theorem popHead_ticks : (s.popHead).ticks = s.ticks := rfl
@[simp] theorem popHead_draws : (s.popHead).draws = s.draws := rfl

@[simp] theorem drive_q : (s.drive).q = s.q := rfl
@[simp] theorem drive_cmdReady : (s.drive).cmdReady = cmdReadyNow s.q s.readyWait := rfl
@[simp] theorem drive_rspValid : (s.drive).rspValid = rspValidNow s.q s.rspValid s.rspWait := rfl
@[simp] theorem drive_inputs : (s.drive).inputs = s.inputs := rfl
@[simp] theorem drive_waiting : (s.drive).waiting = s.waiting := rfl
@[simp] theorem drive_issued : (s.drive).issued = s.issued := rfl
@[simp] theorem drive_received : (s.drive).received = s.received := rfl
@[simp] theorem drive_readyWait :
    (s.drive).readyWait = readyWaitNext s.q s.readyWait s.ticks := rfl
@[simp] theorem drive_rspWait :
    (s.drive).rspWait = rspWaitNext s.q s.rspValid s.rspWait s.ticks := rfl
@[simp] theorem drive_ticks : (s.drive).ticks = s.ticks + 1 := rfl
@[simp] theorem drive_draws : (s.drive).draws = s.draws := rfl

@[simp] theorem resetEdge_q : (s.resetEdge).q = [] := rfl
@[simp] theorem resetEdge_cmdReady : (s.resetEdge).cmdReady = false := rfl
@[simp] theorem resetEdge_rspValid : (s.resetEdge).rspValid = false := rfl
@[simp] theorem resetEdge_inputs : (s.resetEdge).inputs = s.inputs := rfl
@[simp] theorem resetEdge_waiting : (s.resetEdge).waiting = none := rfl
@[simp] theorem resetEdge_issued : (s.resetEdge).issued = [] := rfl
@[simp] theorem resetEdge_received : (s.resetEdge).received = [] := rfl
@[simp] theorem resetEdge_readyWait : (s.resetEdge).readyWait = Config.readyDelay s.ticks := rfl
@[simp] theorem resetEdge_rspWait : (s.resetEdge).rspWait = Config.rspDelay s.ticks := rfl
@[simp] theorem resetEdge_ticks : (s.resetEdge).ticks = s.ticks + 1 := rfl
@[simp] theorem resetEdge_draws : (s.resetEdge).draws = s.draws := rfl

end Sys2Proof.Machine.State
end

