-- ==== Sys2Proof/Laws/Ops.lean ====
section
/-! SUPPORT. For each shared operation, the lemma that says what it can do. -/

namespace Sys2Proof.Machine

/-! ## Primitives -/

/-- `fold` on the integers: the low 31 bits plus bit 31, without wrapping (R90). -/
theorem fold_toNat (z : Word) : (fold z).toNat = z.toNat % 2 ^ 31 + z.toNat / 2 ^ 31 := by
  have hmask : (z &&& m31Word).toNat = z.toNat % 2 ^ 31 := by
    rw [BitVec.toNat_and]
    exact Nat.and_two_pow_sub_one_eq_mod z.toNat 31
  have hz := z.isLt
  rw [fold, BitVec.toNat_add, BitVec.toNat_ushiftRight, hmask, Nat.shiftRight_eq_div_pow]
  omega

/-- `canon` on the integers (R92). -/
theorem canon_toNat (r : Word) : (canon r).toNat = if r.toNat = M31 then 0 else r.toNat := by
  unfold canon
  by_cases h : r = m31Word
  · simp [h]
  · have : r.toNat ≠ M31 := fun e => h (BitVec.eq_of_toNat_eq (by simpa using e))
    simp [h, this]

/-! ## Status outputs -/

theorem hasRoom_iff {q : List Cmd} : hasRoom q = true ↔ q.length < Config.depth := by simp [hasRoom]

theorem cmdReadyNow_iff {q : List Cmd} {w : Nat} :
    cmdReadyNow q w = true ↔ w = 0 ∧ q.length < Config.depth := by
  simp [cmdReadyNow, hasRoom]

theorem rspValidNow_iff {q : List Cmd} {v : Bool} {w : Nat} :
    rspValidNow q v w = true ↔ q ≠ [] ∧ (v = true ∨ w = 0) := by
  simp [rspValidNow]

/-! ## The host's side of an edge -/

theorem keepsCommand_iff {p : PortIn} {s : State} :
    s.keepsCommand p = true ↔ ∀ c, s.waiting = some c → p.cmdValid = true ∧ p.cmd = c := by
  unfold State.keepsCommand
  cases s.waiting <;> simp

/-- What Accept can do: take the command, leave it waiting, or see none (R30, R32). -/
theorem acceptFrom_cases (p : PortIn) (s : State) :
    (p.cmdValid = true ∧ s.cmdReady = true ∧ s.acceptFrom p =
      { s with q := s.q ++ [p.cmd], issued := s.issued ++ [p.cmd], cmdReady := false, waiting := none }) ∨
    (p.cmdValid = true ∧ s.cmdReady = false ∧ s.acceptFrom p = { s with waiting := some p.cmd }) ∨
    (p.cmdValid = false ∧ s.acceptFrom p = { s with waiting := none }) := by
  unfold State.acceptFrom
  cases p.cmdValid <;> cases s.cmdReady <;> simp

/-! ## The meanings -/

/-- What a meaning can do: one response and nothing else, or the refusal of a reserved value. -/
theorem exec_cases (i : Instr) (s : State) :
    (∃ z, exec i s = .next (s.respond z)) ∨
      (i.isOperation = false ∧ ∃ op, exec i s = .refused (.reservedOperation op)) := by
  cases i
  case reserved6 => exact .inr ⟨rfl, 6, rfl⟩
  case reserved7 => exact .inr ⟨rfl, 7, rfl⟩
  all_goals exact .inl ⟨_, rfl⟩

/-- The edge's first half: no handshake and nothing done, or the head's meaning run (R30, R32). -/
theorem deliverTo_cases (p : PortIn) (s : State) :
    (((s.rspValid && p.rspReady) = false ∨ s.q = []) ∧ deliverTo p s = .next s) ∨
      ∃ c rest, s.q = c :: rest ∧ s.rspValid = true ∧ p.rspReady = true ∧
        deliverTo p s = exec (decodeCmd c) s.popHead := by
  unfold deliverTo
  split
  · rename_i h hq
    exact .inr ⟨_, _, hq, by simp_all, by simp_all, rfl⟩
  · rename_i h
    refine .inl ⟨?_, rfl⟩
    cases hv : s.rspValid && p.rspReady
    · exact .inl rfl
    · cases hq : s.q with
      | nil => exact .inr rfl
      | cons c rest => exact (h c rest hv hq).elim

theorem thenNext_next {o : Outcome} {f : State → State} {t : State} :
    thenNext o f = .next t ↔ ∃ m, o = .next m ∧ t = f m := by
  cases o <;> simp [thenNext, eq_comm]

/-- What an edge that answers a next state did: a reset, or Deliver (perhaps) and then Accept
(perhaps). -/
theorem edge_cases {p : PortIn} {s t : State} (h : edge p s = .next t) :
    (p.rst = true ∧ t = s.resetEdge) ∨
      (p.rst = false ∧ s.keepsCommand p = true ∧
        ∃ m, deliverTo p s.drive = .next m ∧ t = m.acceptFrom p) := by
  unfold edge at h
  cases hr : p.rst
  · cases hk : s.keepsCommand p
    · simp [hr, hk] at h
    · simp only [hr, hk, Bool.false_eq_true, if_false, if_true] at h
      exact .inr ⟨rfl, rfl, thenNext_next.1 h⟩
  · simp [hr] at h
    exact .inl ⟨rfl, h.symm⟩

end Sys2Proof.Machine
end

