-- ==== Sys2Proof/Laws/PerInstr.lean ====
section
/-! SUPPORT. Per-instruction law `OperationSelect`: the operation number of spec/30_encoding.md R71
selects the instruction it stands for, no operand is lost, and the command has the instruction's shape. -/

namespace Sys2Proof.Laws.OperationSelect

def Statement (i : Instr) : Prop := decodeCmd i.toCmd = i ∧ i.toCmd.wf = i.wf

theorem add (x y : Vec) : Statement (.add x y) := ⟨rfl, rfl⟩
theorem sub (x y : Vec) : Statement (.sub x y) := ⟨rfl, rfl⟩
theorem mul (x y : Vec) : Statement (.mul x y) := ⟨rfl, rfl⟩
theorem pow5 (x y : Vec) : Statement (.pow5 x y) := ⟨rfl, rfl⟩
theorem sum (x y : Vec) : Statement (.sum x y) := ⟨rfl, rfl⟩
theorem mulext (x y : Vec) : Statement (.mulext x y) := ⟨rfl, rfl⟩
theorem reserved6 (x y : Vec) : Statement (.reserved6 x y) := ⟨rfl, rfl⟩
theorem reserved7 (x y : Vec) : Statement (.reserved7 x y) := ⟨rfl, rfl⟩

end Sys2Proof.Laws.OperationSelect
end

