-- ==== Sys2Proof/Laws/Run.lean ====
section
/-! SUPPORT. What `Host.Core.run` of this core is, one step at a time, in terms of `step` on `State`. -/

namespace Sys2Proof.Machine

theorem run_zero (s : State) : Host.Core.run core 0 s = .next s := rfl

/-- A step that goes on. -/
theorem run_succ_of_next {s t : State} (k : Nat) (h : step s = .next t) :
    Host.Core.run core (k + 1) s = Host.Core.run core k t := by
  have h' : core.step s = .next t := h
  simp [Host.Core.run, h']

/-- A step that stops the run. -/
theorem run_succ_of_refused {s : State} {r : Refusal} (k : Nat) (h : step s = .refused r) :
    Host.Core.run core (k + 1) s = .refused r := by
  have h' : core.step s = .refused r := h
  simp [Host.Core.run, h']

end Sys2Proof.Machine
end

