-- ==== Sys2Proof/Tests/Slice0.lean ====
section
/-! SUPPORT. Tests on vectors of spec/95_test_vectors.md (each test names its row), the refused ill-formed
terms, decoding of words written out from spec/30_encoding.md R65 and R71, and for each statement with
hypotheses a state or operands that meet them. -/

namespace Sys2Proof.Tests

open Sys2Proof Sys2Proof.Machine

/-! ## Ill-formed terms are refused -/

theorem test_wf_refuses_short_x : (Instr.add [1, 2, 3] [1, 2, 3, 4]).wfAt 4 = false := by decide
theorem test_wf_refuses_long_y : (Instr.mulext [1, 2, 3, 4] [1, 2, 3, 4, 5]).wfAt 4 = false := by decide
theorem test_wf_accepts : (Instr.sum [1, 2, 3, 4] [9, 9, 9, 9]).wfAt 4 = true := by decide
theorem test_cmd_wf_refuses : Cmd.wfAt 4 ⟨3, [], [1, 2, 3, 4]⟩ = false := by decide
theorem test_params_refuse_two_lanes : paramsOk 2 1 = false := by decide
theorem test_params_refuse_split_tuple : paramsOk 6 1 = false := by decide
theorem test_params_refuse_no_depth : paramsOk 4 0 = false := by decide

/-! ## Decoding: the words of section 3, and the 3-bit field alone -/

theorem test_decode_P1_add : decodeString 4 0x1d6f345880000002800000008000000103ade68a80000002800000003fffffff0 =
    .ok (.add [2147483646, 0, 5, 123456789] [2, 1, 5, 987654321]) := by rfl
theorem test_decode_P1_sub : decodeString 4 0x1d6f3458800000028000000080000001211d1ae30000000500000000800000009 =
    .ok (.sub [1, 1, 10, 1111111110] [2, 1, 5, 987654321]) := by rfl
theorem test_decode_P2_mul : decodeString 4 0x0001000023ae080d3fffffff0000000d800000010bd277ff0000000080000004a =
    .ok (.mul [9, 1, 396685310, 2] [27, 2147483646, 1197215770, 131072]) := by rfl
theorem test_decode_P2_pow5 : decodeString 4 0x000000000000000000000000000000000000800003ade68abfffffff00000001b =
    .ok (.pow5 [3, 2147483646, 123456789, 65536] [0, 0, 0, 0]) := by rfl
theorem test_decode_P3_sum : decodeString 4 0x000000000000000000000000000000001fffffffa000000000000000bfffffff4 =
    .ok (.sum [2147483646, 1, 1073741824, 1073741823] [0, 0, 0, 0]) := by rfl
theorem test_decode_P4_mulext : decodeString 4 0x0000000200000002000000020000000200000002000000018000000100000000d =
    .ok (.mulext [1, 2, 3, 4] [4, 4, 4, 4]) := by rfl
theorem test_decode_reserved6 : decodeString 4 0b110 = .ok (.reserved6 [0, 0, 0, 0] [0, 0, 0, 0]) := by rfl
theorem test_decode_reserved7 : decodeString 4 0b111 = .ok (.reserved7 [0, 0, 0, 0] [0, 0, 0, 0]) := by rfl
theorem test_decode_refuses_bit_259 : decodeString 4 (2 ^ 259) = .error .longerThanCommand := by
  decide +kernel
theorem test_encode_P4_mulext : encode 4 (.mulext [1, 2, 3, 4] [5, 6, 7, 8]) =
    0x0000000400000003800000030000000280000002000000018000000100000000d := by decide

/-- Which operation a decoded instruction is. -/
def opNumber : Instr → Nat
  | .add _ _ => 0
  | .sub _ _ => 1
  | .mul _ _ => 2
  | .pow5 _ _ => 3
  | .sum _ _ => 4
  | .mulext _ _ => 5
  | .reserved6 _ _ => 6
  | .reserved7 _ _ => 7

theorem test_table_words : ([0, 1, 2, 3, 4, 5, 6, 7].map fun w => (decodeTableWord 8 w).map opNumber) =
    [some 0, some 1, some 2, some 3, some 4, some 5, some 6, some 7] := by decide

/-! ## The fetched word is the one that runs, right after reset -/

/-- The number of responses the host has after an outcome, if it is a next state. -/
def answered : Outcome → Option Nat
  | .next s => some s.received.length
  | _ => none

theorem test_fetched_words_run : ([0, 1, 2, 3, 4, 5].map fun w =>
    answered (step (State.reset.withFetchWord 8 w))) = List.replicate 6 (some 1) := by decide

theorem test_fetched_reserved_refused : step (State.reset.withFetchWord 8 6) =
    .refused (.reservedOperation 6) := by rfl

/-! ## Units, with the nodes the spec lists -/

theorem test_add_S1 : adder 2147483646 2 = 1 := by decide
theorem test_add_A4_canon_case : fold (2147483646 + 1) = 0x7FFFFFFF ∧ adder 2147483646 1 = 0 := by decide
theorem test_sub_S2 : subtractor 0 1 = 2147483646 := by decide
theorem test_sub_B8_order : subtractor 123456789 987654321 = 1283286115 := by decide
theorem test_mul_M4_nodes : widemul 2147483646 2147483646 = (0x00000004, 0x3FFFFFFE) ∧
    firstFold (0x00000004, 0x3FFFFFFE) = 0x80000000 ∧ multiplier 2147483646 2147483646 = 1 := by decide
theorem test_mul_M12_nodes : widemul 123456789 987654321 = (0xFBFF5385, 0x01B13114) ∧
    firstFold (0xFBFF5385, 0x01B13114) = 0x7F61B5AE ∧ multiplier 123456789 987654321 = 2137109934 := by
  decide
theorem test_pow5_P5_8 : power5 123456789 = 1949744752 := by decide
theorem test_sum_T8_levels : treeLevel [123456789, 987654321, 192837465, 564738291, 2147483646, 1,
    1073741824, 1073741823] = [1111111110, 757575756, 0, 0] := by decide
theorem test_sum_T9_odd_node : treeLevel [10, 26, 42] = [36, 42] ∧
    sumTree [1, 2, 3, 4, 5, 6, 7, 8, 9, 10, 11, 12] = 78 := by decide
theorem test_mulext_X14_nodes :
    let n := extNodes ⟨123456789, 987654321, 192837465, 564738291⟩
      ⟨111111111, 222222222, 333333333, 444444444⟩
    n.ll = ⟨641758077, 1386311596⟩ ∧ n.rr = ⟨639754803, 1884025226⟩ ∧
    n.sa = ⟨316294254, 1552392612⟩ ∧ n.sb = ⟨444444444, 666666666⟩ ∧
    n.comb = ⟨543996969, 1274313758⟩ ∧ [n.t0, n.d0, n.t1, n.d1, n.u2, n.u3] =
      [2003274, 1620566805, 1649770017, 1279509606, 1281512880, 1122853175] ∧
    n.z = ⟨1622570079, 370260411, 1409967736, 151460583⟩ := by decide

/-! ## Instructions on one small state -/

/-- The last response of an outcome. -/
def lastResponse : Outcome → Option Vec
  | .next s => s.received.getLast?
  | _ => none

theorem test_execAdd_P1 : lastResponse (exec (.add [2147483646, 0, 5, 123456789] [2, 1, 5, 987654321])
    State.reset) = some [1, 1, 10, 1111111110] := by decide
theorem test_execSub_P1 : lastResponse (exec (.sub [2147483646, 0, 5, 123456789] [2, 1, 5, 987654321])
    State.reset) = some [2147483644, 2147483646, 0, 1283286115] := by decide
theorem test_execMul_P2 : lastResponse (exec (.mul [9, 1, 396685310, 2] [27, 2147483646, 1197215770, 131072])
    State.reset) = some [243, 2147483646, 1949744752, 262144] := by decide
theorem test_execPow5_P2_bad_y : lastResponse (exec (.pow5 [3, 2147483646, 123456789, 65536]
    [0xFFFFFFFF, 0, 0, 0x7FFFFFFF]) State.reset) = some [243, 2147483646, 1949744752, 262144] := by decide
theorem test_execSum_T8 : lastResponse (exec (.sum [123456789, 987654321, 192837465, 564738291,
    2147483646, 1, 1073741824, 1073741823] []) State.reset) = some [1868686866, 0, 0, 0, 0, 0, 0, 0] := by
  decide
theorem test_execMulext_X16 : lastResponse (exec (.mulext [1, 0, 0, 0, 0, 0, 1, 0] [5, 6, 7, 8, 0, 0, 0, 1])
    State.reset) = some [5, 6, 7, 8, 2, 2147483646, 0, 0] := by decide
/-- R73: the offending lane is open, the lane beside it keeps its value. -/
theorem test_execAdd_bad_lane : (lastResponse (exec (.add [0x7FFFFFFF, 5, 0, 0] [1, 6, 0, 0])
    State.reset)).bind (·[1]?) = some 11 := by decide
/-- R73: the zeros of SUM stand beside an open lane 0. -/
theorem test_execSum_bad_lane : (lastResponse (exec (.sum [0, 0x80000000, 0, 0] [0, 0, 0, 0])
    State.reset)).map (·.tail) = some [0, 0, 0] := by decide
/-- R73: an offending word leaves its own tuple open and the other tuple as it is. -/
theorem test_execMulext_bad_tuple : (lastResponse (exec (.mulext [0, 0, 0, 0x7FFFFFFF, 0, 0, 1, 0]
    [5, 6, 7, 8, 0, 0, 0, 1]) State.reset)).map (·.drop 4) = some [2, 2147483646, 0, 0] := by decide

/-! ## Edges -/

/-- The command of program P1, line 1. -/
def cmdP1 : Cmd := ⟨0, [2147483646, 0, 5, 123456789], [2, 1, 5, 987654321]⟩

/-- Ports that present a command, with `rsp_ready` as given. -/
def presenting (c : Cmd) (ready : Bool) : PortIn := ⟨false, true, c.op, c.x, c.y, ready⟩

/-- A state with a queue, coming inputs and the free waits over. -/
def small (q : List Cmd) (inputs : List PortIn) : State :=
  { State.reset with q := q, inputs := inputs, readyWait := 0, rspWait := 0 }

/-- The queue after an outcome. -/
def queueOf : Outcome → Option (List Cmd)
  | .next s => some s.q
  | _ => none

theorem test_edge_accepts : queueOf (step (small [] [presenting cmdP1 false])) = some [cmdP1] := by decide
theorem test_edge_delivers : lastResponse (step (small [cmdP1] [takingPins])) =
    some [1, 1, 10, 1111111110] := by decide
/-- "A run with a reset in it": the accepted command is lost and never answered. -/
theorem test_edge_resets : queueOf (step (small [cmdP1] [{ takingPins with rst := true }])) = some [] ∧
    lastResponse (step (small [cmdP1] [{ takingPins with rst := true }])) = none := by decide

/-! ## Host arrays -/

theorem test_cut_pads_last : cut 4 0 [1, 2, 3, 4, 5] = [[1, 2, 3, 4], [5, 0, 0, 0]] := by decide
theorem test_cut_P3 : (cut 4 0 [123456789, 987654321, 192837465, 564738291, 2147483646, 1, 1073741824,
    1073741823]).map sumTree = [1868686866, 0] := by decide
theorem test_host_rejects_split_tuple : hostErrors true ⟨32, [1, 2, 3, 4, 5]⟩ ⟨32, [1, 2, 3, 4, 5]⟩ =
    [.shapeMismatch] := by decide
theorem test_host_lists_both : hostErrors false ⟨64, [1]⟩ ⟨32, [1, 2]⟩ =
    [.shapeMismatch, .representationMismatch] := by decide

/-! ## What meets the hypotheses of each statement, at boundary values -/

/-- A command of this build. -/
def zeroCmd (op : BitVec 3) : Cmd := ⟨op, zeroVec, zeroVec⟩

/-- Ports that present it. -/
def zeroPins (op : BitVec 3) (ready : Bool) : PortIn := presenting (zeroCmd op) ready

@[simp] theorem zeroVec_length : zeroVec.length = Config.nlane := by simp [zeroVec]

theorem zeroVec_canonical : zeroVec.all canonical = true := by simp [zeroVec]; decide

theorem zeroCmd_wf (op : BitVec 3) : (zeroCmd op).wf = true := by simp [cmd_wf_iff, zeroCmd]

theorem witness_FoldReachesClosedRange :
    (2147483646#32).toNat < M31 ∧ (2147483647#32).toNat = M31 ∧
    (2 ^ 31 ≤ (0x80000000#32).toNat ∧ (0x80000000#32).toNat < 2 * M31) ∧
    (2 ^ 31 ≤ (0xFFFFFFFD#32).toNat ∧ (0xFFFFFFFD#32).toNat < 2 * M31) ∧
    (0xFFFFFFFE#32).toNat = 0xFFFFFFFE ∧ (0xFFFFFFFF#32).toNat = 0xFFFFFFFF := by decide

theorem witness_CanonMapsM31ToZero : (2147483647#32).toNat ≤ M31 ∧ (2147483647#32).toNat = M31 ∧
    (2147483646#32).toNat ≤ M31 ∧ (2147483646#32).toNat ≠ M31 := by decide

/-- The greatest canonical words meet the hypotheses of the statements about two or three operand words
(adder, double, subtractor, multiplier, power-5 unit, helper, field laws, squarings). -/
theorem witness_canonical_words : canonical 2147483646 = true ∧ canonical 0 = true ∧ canonical 1 = true ∧
    canonical 2147483647 = false := by decide

theorem witness_SumTreeEqualsChainAndSum :
    ([2147483646, 2147483646, 1, 1] : Vec).all canonical = true := by decide

theorem witness_SumIgnoresLaneOrderAndZeros : ([2147483646, 1] : Vec).all canonical = true ∧
    (([2147483646, 1] : Vec) ++ List.replicate 1 0).Perm [0, 1, 2147483646] := by decide

/-- The greatest canonical tuple meets the hypotheses of the statements about extension elements. -/
theorem witness_canonical_tuples :
    (⟨2147483646, 2147483646, 2147483646, 2147483646⟩ : Tuple).canonical = true ∧
    (⟨0, 0, 0, 1⟩ : Tuple).canonical = true := by decide

/-- Zero vectors of this build meet the hypotheses of the six completion statements, with operand words
on lane 0 for the inner ones. -/
theorem witness_completion : (∀ op : BitVec 3, (decodeCmd (zeroCmd op)).wf = true) ∧
    zeroVec[0]? = some 0 ∧ canonical 0 = true ∧ 0 < Config.nlane / 4 ∧ 0 + 1 < Config.nlane := by
  have := Config.nlane_ge_four
  refine ⟨fun op => by rw [decodeCmd_wf, zeroCmd_wf], ?_, by decide, by omega, by omega⟩
  simp [zeroVec, Config.nlane_pos]

theorem witness_ReservedOperationIsAcceptedThenRefused :
    ((zeroCmd 6).op = 6 ∧ (zeroCmd 7).op = 7) ∧
    (∀ op, (small [] []).keepsCommand (zeroPins op false) = true ∧ (small [] []).drive.cmdReady = true ∧
      (zeroPins op false).cmd = zeroCmd op) ∧
    (∀ op, (small [zeroCmd op] []).keepsCommand takingPins = true ∧
      (small [zeroCmd op] []).drive.rspValid = true) := by
  refine ⟨⟨rfl, rfl⟩, fun _ => ⟨rfl, ?_, rfl⟩, fun _ => ⟨rfl, rfl⟩⟩
  simp [small, cmdReadyNow_iff, Config.depth_pos]

theorem witness_LanesAndTuplesDoNotInteract : ∃ x y x' y' : Vec, x.length = Config.nlane ∧
    y.length = Config.nlane ∧ x'.length = Config.nlane ∧ y'.length = Config.nlane ∧ x ≠ x' ∧
    x[0]? = x'[0]? ∧ y[0]? = y'[0]? := by
  refine ⟨List.replicate Config.nlane 0, zeroVec, (List.replicate Config.nlane 0).set 1 5, zeroVec,
    by simp, by simp, by simp, by simp, ?_, by simp, rfl⟩
  have := Config.nlane_ge_four
  intro h
  have h1 := congrArg (fun v : Vec => v[1]?) h
  have hlt : 1 < Config.nlane := by omega
  simp [hlt] at h1

/-- Two pairs of vectors that agree on tuple 0, and differ where this build has a second tuple. -/
theorem witness_LanesAndTuplesDoNotInteract_tuple : ∃ x x' : Vec, x.length = Config.nlane ∧
    x'.length = Config.nlane ∧ (4 < Config.nlane → x ≠ x') ∧ tupleAt x 0 = some ⟨1, 2, 3, 4⟩ ∧
    tupleAt x' 0 = some ⟨1, 2, 3, 4⟩ := by
  refine ⟨[1, 2, 3, 4] ++ List.replicate (Config.nlane - 4) 0,
    [1, 2, 3, 4] ++ List.replicate (Config.nlane - 4) 0xFFFFFFFF, ?_, ?_, ?_, rfl, rfl⟩
  all_goals have := Config.nlane_ge_four
  · simp; omega
  · simp; omega
  · intro hlt h
    have h4 := congrArg (fun v : Vec => v[4]?) h
    simp [hlt] at h4

theorem witness_CanonicalResponseDependsOnCommandAlone :
    (Instr.mulext zeroVec zeroVec).wf = true ∧ (Instr.mulext zeroVec zeroVec).isOperation = true ∧
    (Instr.mulext zeroVec zeroVec).operandsCanonical = true := by
  refine ⟨by simp [Instr.wf, Instr.wfAt, vecOk], rfl, ?_⟩
  simp [Instr.operandsCanonical, zeroVec_canonical]

theorem witness_ResetEdgeEmptiesTheCore :
    (small [cmdP1] [{ presenting cmdP1 true with rst := true }]).pins.rst = true := rfl

theorem witness_StepRunsTheDecodedCommand : ∃ (s : State) (c : Cmd) (rest : List Cmd), s.q = c :: rest ∧
    (decodeCmd c).wf = true ∧ s.pins.rst = false ∧ s.keepsCommand s.pins = true ∧
    (s.rspValid = true ∨ s.rspWait = 0) ∧ s.pins.rspReady = true :=
  ⟨small [zeroCmd 5] [takingPins], zeroCmd 5, [], rfl, by rw [decodeCmd_wf, zeroCmd_wf], rfl, rfl,
    .inr rfl, rfl⟩

theorem witness_FetchedWordIsRun : ∃ i, decodeTableWord 8 7 = some i := ⟨_, rfl⟩

theorem witness_AcceptAppendsTheCommand : ∃ s : State, s.pins.rst = false ∧
    s.keepsCommand s.pins = true ∧ s.pins.cmdValid = true ∧ s.pins.rspReady = false ∧ s.readyWait = 0 ∧
    s.q.length < Config.depth :=
  ⟨small [] [zeroPins 0 false], rfl, rfl, rfl, rfl, rfl, Config.depth_pos⟩

theorem witness_CommandWaitsWhileCoreIsNotReady : ∃ s : State, s.pins.rst = false ∧
    s.keepsCommand s.pins = true ∧ s.pins.cmdValid = true ∧ s.pins.rspReady = false ∧ s.readyWait = 0 ∧
    Config.depth ≤ s.q.length :=
  ⟨small (List.replicate Config.depth (zeroCmd 0)) [zeroPins 0 false], rfl, rfl, rfl, rfl, rfl,
    by simp [small]⟩

theorem witness_CommandPortsIgnoredWithoutValid : ∃ p p' : PortIn, p.cmdValid = false ∧
    p'.cmdValid = false ∧ p.rst = p'.rst ∧ p.rspReady = p'.rspReady ∧ p.cmd ≠ p'.cmd :=
  ⟨takingPins, { takingPins with cmdOp := 7 }, rfl, rfl, rfl, rfl, by simp [PortIn.cmd, takingPins]⟩

/-- A queue with one command, a host that takes its response and presents the next: the four invariants
hold, and the step answers a next state. -/
theorem witness_invariants : ∃ s t : State, s.QueueOk ∧ s.Shaped ∧ s.InOrder ∧ s.CanonicalRun ∧
    step s = .next t := by
  refine ⟨{ small [zeroCmd 0] [zeroPins 0 true] with issued := [zeroCmd 0] }, _, ?_, ?_, ?_, ?_, rfl⟩
  · have := Config.depth_pos
    simp [State.QueueOk, small, State.reset]
    omega
  · simp [State.Shaped, small, State.reset, zeroPins, presenting, PortIn.cmd, cmd_wf_iff, zeroCmd]
  · exact ⟨[], rfl, .nil⟩
  · simp [State.CanonicalRun, small, State.reset, zeroPins, presenting, PortIn.cmd, zeroCmd, decodeCmd,
      Instr.operandsCanonical, zeroVec_canonical]

theorem witness_OfferedResponseIsHeld : ∃ s t : State, s.pins.rst = false ∧ s.pins.rspReady = false ∧
    s.sampled.drive.rspValid = true ∧ step s = .next t :=
  ⟨small [zeroCmd 4] [], _, rfl, rfl, rfl, rfl⟩

theorem witness_DeliveredResponseIsTheOneOffered : ∃ s t : State, s.pins.rst = false ∧
    s.pins.rspReady = true ∧ s.sampled.drive.rspValid = true ∧ step s = .next t :=
  ⟨small [zeroCmd 4] [takingPins], _, rfl, rfl, rfl, rfl⟩

theorem witness_ChangedCommandIsRefused : ∃ (s : State) (c : Cmd), s.waiting = some c ∧
    s.pins.rst = false ∧ s.pins.cmdValid = true ∧ s.pins.cmd ≠ c :=
  ⟨{ small [] [zeroPins 1 false] with waiting := some (zeroCmd 0) }, zeroCmd 0, rfl, rfl, rfl,
    by simp [State.pins, small, zeroPins, presenting, PortIn.cmd, zeroCmd]⟩

theorem witness_StepRefusesOnlyReservedOrChanged :
    step (small [zeroCmd 6] [takingPins]) = .refused (.reservedOperation 6) := rfl

theorem witness_StepCompletesForEveryOperand : ∃ s : State, s.keepsCommand s.pins = true ∧ s.q ≠ [] ∧
    ∀ c ∈ s.q, (decodeCmd c).isOperation = true :=
  ⟨small [⟨2, [0xFFFFFFFF], [0x7FFFFFFF]⟩] [], rfl, by simp [small], by simp [small]; rfl⟩

theorem witness_HeldCommandIsAcceptedInFiniteTime : ∃ (s : State) (c : Cmd) (rest : List PortIn),
    s.q.length = Config.depth ∧ (∀ d ∈ s.q, (decodeCmd d).isOperation = true) ∧ s.waiting = some c ∧
    s.inputs = List.replicate (s.rspWait + s.readyWait + 2) ⟨false, true, c.op, c.x, c.y, true⟩ ++ rest :=
  ⟨{ small (List.replicate Config.depth (zeroCmd 3)) (List.replicate 2 (zeroPins 6 true)) with
      waiting := some (zeroCmd 6) }, zeroCmd 6, [], by simp [small],
    by simp [small]; exact fun _ => rfl, rfl, rfl⟩

theorem witness_AcceptedCommandIsAnsweredInFiniteTime : ∃ (s : State) (c : Cmd) (queue : List Cmd)
    (ready : List Bool) (rest : List PortIn), s.q = c :: queue ∧ c.wf = true ∧
    (decodeCmd c).isOperation = true ∧ s.rspValid = false ∧ s.waiting = none ∧ ready.length = s.rspWait ∧
    s.inputs = ready.map (fun r => ⟨false, false, 0, zeroVec, zeroVec, r⟩) ++ takingPins :: rest :=
  ⟨{ small [zeroCmd 5] [takingPins, takingPins] with rspWait := 1 }, zeroCmd 5, [], [true], [], rfl,
    zeroCmd_wf 5, rfl, rfl, rfl, rfl, rfl⟩

/-- A command at the head with one edge to wait, and a host that presents another one meanwhile. -/
theorem witness_HeadIsOfferedWhateverTheHostPresents : ∃ (s : State) (c : Cmd) (queue : List Cmd),
    s.q = c :: queue ∧ c.wf = true ∧ (decodeCmd c).isOperation = true ∧ s.rspValid = false ∧
    s.rspWait = 1 ∧ s.pins.cmdValid = true ∧ s.keepsCommand s.pins = true ∧
    ∀ p ∈ s.inputs.take s.rspWait, p.rst = false :=
  ⟨{ small [zeroCmd 5] [zeroPins 2 true, zeroPins 2 true] with rspWait := 1 }, zeroCmd 5, [], rfl,
    zeroCmd_wf 5, rfl, rfl, rfl, rfl, rfl, by simp [small, zeroPins, presenting]⟩

theorem witness_DecodeOfEncodeIsTheInstruction : 0 < 4 ∧
    (Instr.mulext [0xFFFFFFFF, 0, 0, 0] [0, 0, 0, 0xFFFFFFFF]).wfAt 4 = true := by decide

theorem witness_EveryStringIsOneCommand : 2 ^ (3 + 64 * 1) - 1 < 2 ^ (3 + 64 * 1) ∧
    2 ^ (3 + 64 * 1) ≤ 2 ^ (3 + 64 * 1) := by decide

theorem witness_CutsCoverEveryElementOnce : 0 < 4 ∧ ([1, 2, 3, 4, 5] : Vec).all canonical = true ∧
    canonical 0 = true ∧ ([1, 2, 3, 4, 5] : Vec).length = ([1, 2, 3, 4, 2147483646] : Vec).length ∧
    ([1, 2, 3, 4, 2147483646] : Vec).all canonical = true := by decide

end Sys2Proof.Tests
end

section
/-! PROOFS. Each word as an element of the field with M31 elements, and the units of one or two words on it
(spec/40_primitives.md to 44_power5.md). -/

namespace Sys2Proof

open Machine

/-! ## Words as elements of the field with M31 elements -/

/-- M31 is the Mersenne prime 2^31 − 1 (R3), by the Lucas-Lehmer test. -/
theorem m31_prime : Nat.Prime M31 := by
  have h : (mersenne 31).Prime := lucas_lehmer_sufficiency 31 (by simp) (by norm_num)
  simpa [mersenne] using h

theorem canonical_iff {w : Word} : canonical w = true ↔ w.toNat < M31 := by simp [canonical]

/-- `w` is the canonical word of the field element `a`: what a unit keeps of its operands (R61). -/
structure Represents (w : Word) (a : ZMod M31) : Prop where
  canonical : Sys2Proof.canonical w = true
  value : (w.toNat : ZMod M31) = a

/-- A canonical word represents its own value. -/
theorem represents_self {w : Word} (h : canonical w = true) : Represents w (val w) :=
  ⟨h, by simp [val]⟩

theorem represents_of_toNat {w : Word} {n : Nat} (h : w.toNat = n % M31) : Represents w n :=
  ⟨canonical_iff.2 (h ▸ Nat.mod_lt n (by decide)), by rw [h, ZMod.natCast_mod]⟩

/-- A field element has one canonical word (R61). -/
theorem Represents.unique {w w' : Word} {a : ZMod M31} (h : Represents w a) (h' : Represents w' a) :
    w = w' := by
  obtain ⟨hw, ha⟩ := h
  obtain ⟨hw', ha'⟩ := h'
  rw [canonical_iff] at hw hw'
  have hmod := (ZMod.natCast_eq_natCast_iff' _ _ _).1 (ha.trans ha'.symm)
  exact BitVec.eq_of_toNat_eq (by rwa [Nat.mod_eq_of_lt hw, Nat.mod_eq_of_lt hw'] at hmod)

theorem represents_residue (v : Int) : Represents (residue v) v := by
  have hnonneg : 0 ≤ v % (M31 : Int) := Int.emod_nonneg v (by decide)
  have hlt : v % (M31 : Int) < M31 := Int.emod_lt_of_pos v (by decide)
  have htoNat : (residue v).toNat = (v % (M31 : Int)).toNat := by
    rw [residue, BitVec.toNat_ofNat]
    unfold M31 at *
    omega
  refine ⟨canonical_iff.2 (by omega), ?_⟩
  rw [htoNat, ← Int.cast_natCast, Int.toNat_of_nonneg hnonneg]
  exact ZMod.intCast_mod v M31

theorem canonical_residue (v : Int) : canonical (residue v) = true := (represents_residue v).canonical

/-- A word that represents the field element of an integer is the integer's residue. -/
theorem Represents.eq_residue {w : Word} {a : ZMod M31} {v : Int} (h : Represents w a)
    (hv : a = (v : ZMod M31)) : w = residue v :=
  h.unique (hv ▸ represents_residue v)

/-! ## The units on the integers -/

theorem adder_toNat {x y : Word} (hx : canonical x = true) (hy : canonical y = true) :
    (adder x y).toNat = (x.toNat + y.toNat) % M31 := by
  rw [canonical_iff] at hx hy
  have hsum : (x + y).toNat = x.toNat + y.toNat := by
    rw [BitVec.toNat_add]
    unfold M31 at *
    omega
  rw [adder, canon_toNat, fold_toNat, hsum]
  unfold M31 at *
  split <;> omega

theorem subtractor_toNat {x y : Word} (hx : canonical x = true) (hy : canonical y = true) :
    (subtractor x y).toNat = (x.toNat + M31 - y.toNat) % M31 := by
  rw [canonical_iff] at hx hy
  have hdiff : (x + m31Word - y).toNat = x.toNat + M31 - y.toNat := by
    rw [BitVec.toNat_sub, BitVec.toNat_add, show m31Word.toNat = M31 from rfl]
    unfold M31 at *
    omega
  rw [subtractor, canon_toNat, fold_toNat, hdiff]
  unfold M31 at *
  split <;> omega

/-- No bit of the wide product is lost: the halves are those of the product (R93). -/
theorem widemul_toNat (x y : Word) :
    (widemul x y).1.toNat = x.toNat * y.toNat % 2 ^ 32 ∧
      (widemul x y).2.toNat = x.toNat * y.toNat / 2 ^ 32 := by
  have hprod : x.toNat * y.toNat < 2 ^ 32 * 2 ^ 32 :=
    Nat.mul_lt_mul'' x.isLt y.isLt
  have h64 : (x.zeroExtend 64 * y.zeroExtend 64).toNat = x.toNat * y.toNat := by
    simp only [BitVec.truncate_eq_setWidth, BitVec.toNat_mul, BitVec.toNat_setWidth]
    rw [Nat.mod_eq_of_lt (a := x.toNat) (by omega), Nat.mod_eq_of_lt (a := y.toNat) (by omega)]
    omega
  simp only [widemul, BitVec.extractLsb'_toNat, h64, Nat.shiftRight_eq_div_pow]
  omega

theorem toNat_mul_toNat_le {x y : Word} (hx : canonical x = true) (hy : canonical y = true) :
    x.toNat * y.toNat ≤ 2147483646 * 2147483646 :=
  Nat.mul_le_mul (Nat.le_pred_of_lt (canonical_iff.1 hx)) (Nat.le_pred_of_lt (canonical_iff.1 hy))

/-- The three-term sum before the second fold, without wrapping (R121, R122). -/
theorem firstFold_toNat {x y : Word} (hx : canonical x = true) (hy : canonical y = true) :
    (firstFold (widemul x y)).toNat =
      (widemul x y).1.toNat % 2 ^ 31 + (widemul x y).1.toNat / 2 ^ 31 + 2 * (widemul x y).2.toNat := by
  have hprod := toNat_mul_toNat_le hx hy
  obtain ⟨-, hhigh⟩ := widemul_toNat x y
  have hlow := (widemul x y).1.isLt
  have hfold := fold_toNat (widemul x y).1
  rw [fold] at hfold
  rw [firstFold, BitVec.toNat_add, hfold, BitVec.toNat_shiftLeft, Nat.shiftLeft_eq]
  omega

theorem firstFold_mod {x y : Word} (hx : canonical x = true) (hy : canonical y = true) :
    (firstFold (widemul x y)).toNat % M31 = x.toNat * y.toNat % M31 := by
  obtain ⟨hlow, hhigh⟩ := widemul_toNat x y
  rw [firstFold_toNat hx hy]
  unfold M31
  omega

theorem firstFold_le {x y : Word} (hx : canonical x = true) (hy : canonical y = true) :
    (firstFold (widemul x y)).toNat ≤ 0xFFFFFFFC := by
  have hprod := toNat_mul_toNat_le hx hy
  obtain ⟨hlow, hhigh⟩ := widemul_toNat x y
  rw [firstFold_toNat hx hy]
  omega

/-- The sum is never M31, since M31 is prime: the product would be 0, and so the sum (R123). -/
theorem firstFold_ne_m31 {x y : Word} (hx : canonical x = true) (hy : canonical y = true) :
    (firstFold (widemul x y)).toNat ≠ M31 := by
  intro hsum
  have hdvd : M31 ∣ x.toNat * y.toNat :=
    Nat.dvd_of_mod_eq_zero (by rw [← firstFold_mod hx hy, hsum, Nat.mod_self])
  have hzero : x.toNat * y.toNat = 0 := by
    rcases m31_prime.dvd_mul.1 hdvd with h | h
    · rw [Nat.eq_zero_of_dvd_of_lt h (canonical_iff.1 hx), Nat.zero_mul]
    · rw [Nat.eq_zero_of_dvd_of_lt h (canonical_iff.1 hy), Nat.mul_zero]
  obtain ⟨hlow, hhigh⟩ := widemul_toNat x y
  rw [firstFold_toNat hx hy, hlow, hhigh, hzero] at hsum
  exact absurd hsum (by decide)

theorem multiplier_toNat {x y : Word} (hx : canonical x = true) (hy : canonical y = true) :
    (multiplier x y).toNat = x.toNat * y.toNat % M31 := by
  have hle := firstFold_le hx hy
  have hne := firstFold_ne_m31 hx hy
  rw [multiplier, fold_toNat, ← firstFold_mod hx hy]
  unfold M31 at *
  omega

/-! ## The units on the field -/

variable {x y : Word} {a b : ZMod M31}

theorem Represents.adder (hx : Represents x a) (hy : Represents y b) :
    Represents (adder x y) (a + b) := by
  have h := represents_of_toNat (adder_toNat hx.canonical hy.canonical)
  rwa [Nat.cast_add, hx.value, hy.value] at h

theorem Represents.subtractor (hx : Represents x a) (hy : Represents y b) :
    Represents (subtractor x y) (a - b) := by
  have hle : y.toNat ≤ x.toNat + M31 := by have := canonical_iff.1 hy.canonical; omega
  have h := represents_of_toNat (subtractor_toNat hx.canonical hy.canonical)
  rwa [Nat.cast_sub hle, Nat.cast_add, ZMod.natCast_self, add_zero, hx.value, hy.value] at h

theorem Represents.multiplier (hx : Represents x a) (hy : Represents y b) :
    Represents (multiplier x y) (a * b) := by
  have h := represents_of_toNat (multiplier_toNat hx.canonical hy.canonical)
  rwa [Nat.cast_mul, hx.value, hy.value] at h

theorem Represents.double (hx : Represents x a) : Represents (double x) (2 * a) :=
  two_mul a ▸ hx.adder hx

theorem Represents.power5 (hx : Represents x a) : Represents (power5 x) (a ^ 5) := by
  have h2 := hx.multiplier hx
  have h5 : a * a * (a * a * a) = a ^ 5 := by ring
  exact h5 ▸ h2.multiplier (h2.multiplier hx)

theorem represents_zero : Represents 0 0 := ⟨by decide, by simp⟩

end Sys2Proof
end

section
/-! PROOFS. The units that are built from units, and the agreement of every datapath with its value function
(spec/00_scope.md R15). -/

namespace Sys2Proof

open Machine

/-! ## The units that are built from units -/

/-- The helper multiplies complex numbers with `i² = −1` (R150, R151). -/
theorem Represents.multiplyComplex {x0 x1 y0 y1 : Word} {a0 a1 b0 b1 : ZMod M31}
    (hx0 : Represents x0 a0) (hx1 : Represents x1 a1) (hy0 : Represents y0 b0)
    (hy1 : Represents y1 b1) :
    Represents (multiplyComplex x0 x1 y0 y1).re (a0 * b0 - a1 * b1) ∧
      Represents (multiplyComplex x0 x1 y0 y1).im (a0 * b1 + a1 * b0) := by
  have hlow := hx0.multiplier hy0
  have hhigh := hx1.multiplier hy1
  have hmed := (hx0.adder hx1).multiplier (hy0.adder hy1)
  have him : (a0 + a1) * (b0 + b1) - (a0 * b0 + a1 * b1) = a0 * b1 + a1 * b0 := by ring
  exact ⟨hlow.subtractor hhigh, him ▸ hmed.subtractor (hlow.adder hhigh)⟩

theorem Tuple.canonical_iff {t : Tuple} : t.canonical = true ↔
    Sys2Proof.canonical t.a0 = true ∧ Sys2Proof.canonical t.a1 = true ∧
      Sys2Proof.canonical t.a2 = true ∧ Sys2Proof.canonical t.a3 = true := by
  simp [Tuple.canonical, and_assoc]

theorem represents_tuple {t : Tuple} (h : t.canonical = true) :
    Represents t.a0 (val t.a0) ∧ Represents t.a1 (val t.a1) ∧ Represents t.a2 (val t.a2) ∧
      Represents t.a3 (val t.a3) := by
  obtain ⟨h0, h1, h2, h3⟩ := Tuple.canonical_iff.1 h
  exact ⟨represents_self h0, represents_self h1, represents_self h2, represents_self h3⟩

/-- The Karatsuba composition computes the closed form, since the two are the same polynomial in the
eight operand words (R152, R153, R154). -/
theorem extMultiplier_eq_mulext {a b : Tuple} (ha : a.canonical = true) (hb : b.canonical = true) :
    extMultiplier a b = Value.mulext a b := by
  obtain ⟨ha0, ha1, ha2, ha3⟩ := represents_tuple ha
  obtain ⟨hb0, hb1, hb2, hb3⟩ := represents_tuple hb
  obtain ⟨llRe, llIm⟩ := ha0.multiplyComplex ha1 hb0 hb1
  obtain ⟨rrRe, rrIm⟩ := ha2.multiplyComplex ha3 hb2 hb3
  obtain ⟨combRe, combIm⟩ :=
    (ha0.adder ha2).multiplyComplex (ha1.adder ha3) (hb0.adder hb2) (hb1.adder hb3)
  have z0 := (llRe.subtractor rrRe).adder rrIm.double
  have z1 := (llIm.subtractor rrIm).subtractor rrRe.double
  have z2 := combRe.subtractor (llRe.adder rrRe)
  have z3 := combIm.subtractor (llIm.adder rrIm)
  refine (Tuple.mk.injEq ..).mpr
    ⟨z0.eq_residue ?_, z1.eq_residue ?_, z2.eq_residue ?_, z3.eq_residue ?_⟩
  all_goals push_cast; ring

theorem extMultiplier_canonical {a b : Tuple} (ha : a.canonical = true) (hb : b.canonical = true) :
    (extMultiplier a b).canonical = true := by
  rw [extMultiplier_eq_mulext ha hb]
  exact Tuple.canonical_iff.2
    ⟨canonical_residue _, canonical_residue _, canonical_residue _, canonical_residue _⟩

/-- The field element that a vector of words adds up to. -/
def fieldSum (x : Vec) : ZMod M31 := (x.map fun w => (w.toNat : ZMod M31)).sum

@[simp] theorem fieldSum_nil : fieldSum [] = 0 := rfl

@[simp] theorem fieldSum_cons (w : Word) (x : Vec) : fieldSum (w :: x) = w.toNat + fieldSum x := by
  simp [fieldSum]

/-- The integer sum of R140 stands for it. -/
theorem fieldSum_eq_cast (x : Vec) : fieldSum x = ((x.map val).sum : Int) := by
  induction x with
  | nil => simp
  | cons w x ih => simp [ih, val]

/-- A level of the tree halves the number of nodes, rounding up (R141). -/
theorem treeLevel_length (x : Vec) : (treeLevel x).length = (x.length + 1) / 2 := by
  fun_induction treeLevel x with
  | case1 a b rest ih => simp [ih]; omega
  | case2 rest h =>
    match rest, h with
    | [], _ => simp
    | [_], _ => simp
    | a :: b :: rest, h => exact (h a b rest rfl).elim

/-- A level of the tree keeps its nodes canonical, and their sum (R141, R142). -/
theorem treeLevel_represents {x : Vec} (hx : x.all canonical = true) :
    (treeLevel x).all canonical = true ∧ fieldSum (treeLevel x) = fieldSum x := by
  fun_induction treeLevel x with
  | case1 a b rest ih =>
    simp only [List.all_cons, Bool.and_eq_true] at hx
    obtain ⟨ha, hb, hrest⟩ := hx
    obtain ⟨hcanon, hsum⟩ := ih hrest
    have hab := (represents_self ha).adder (represents_self hb)
    refine ⟨by simp [hab.canonical, hcanon], ?_⟩
    rw [fieldSum_cons, fieldSum_cons, fieldSum_cons, hsum, hab.value]
    simp [val, add_assoc]
  | case2 => exact ⟨hx, rfl⟩

theorem treeFrom_singleton_represents {a : Word} (levels : Nat) (ha : [a].all canonical = true) :
    Represents (treeFrom levels [a]) (fieldSum [a]) := by
  have hroot : treeFrom levels [a] = a := by cases levels <;> rfl
  simpa [hroot, val] using represents_self (w := a) (by simpa using ha)

/-- The tree reaches its root with a level for each leaf but one, and the root stands for the sum. -/
theorem treeFrom_represents {levels : Nat} {x : Vec} (hlevels : x.length ≤ levels + 1)
    (hx : x.all canonical = true) : Represents (treeFrom levels x) (fieldSum x) := by
  induction levels generalizing x with
  | zero =>
    match x with
    | [] => exact represents_zero
    | [a] => exact treeFrom_singleton_represents _ hx
    | _ :: _ :: _ => simp at hlevels
  | succ levels ih =>
    match x with
    | [] => exact represents_zero
    | [a] => exact treeFrom_singleton_represents _ hx
    | a :: b :: rest =>
      obtain ⟨hcanon, hsum⟩ := treeLevel_represents hx
      rw [treeFrom, ← hsum]
      refine ih ?_ hcanon
      rw [treeLevel_length]
      simp only [List.length_cons] at hlevels ⊢
      omega

theorem sumTree_represents {x : Vec} (hx : x.all canonical = true) :
    Represents (sumTree x) (fieldSum x) :=
  treeFrom_represents (Nat.le_succ _) hx

/-! ## Units and value functions agree on canonical words -/

section
variable {x y : Word}

theorem adder_eq_add (hx : canonical x = true) (hy : canonical y = true) :
    adder x y = Value.add x y :=
  ((represents_self hx).adder (represents_self hy)).eq_residue (by push_cast; rfl)

theorem subtractor_eq_sub (hx : canonical x = true) (hy : canonical y = true) :
    subtractor x y = Value.sub x y :=
  ((represents_self hx).subtractor (represents_self hy)).eq_residue (by push_cast; rfl)

theorem multiplier_eq_mul (hx : canonical x = true) (hy : canonical y = true) :
    multiplier x y = Value.mul x y :=
  ((represents_self hx).multiplier (represents_self hy)).eq_residue (by push_cast; rfl)

theorem power5_eq_pow5 (hx : canonical x = true) : power5 x = Value.pow5 x :=
  (represents_self hx).power5.eq_residue (by push_cast; rfl)

theorem adder_canonical (hx : canonical x = true) (hy : canonical y = true) :
    canonical (adder x y) = true :=
  ((represents_self hx).adder (represents_self hy)).canonical

theorem subtractor_canonical (hx : canonical x = true) (hy : canonical y = true) :
    canonical (subtractor x y) = true :=
  ((represents_self hx).subtractor (represents_self hy)).canonical

theorem multiplier_canonical (hx : canonical x = true) (hy : canonical y = true) :
    canonical (multiplier x y) = true :=
  ((represents_self hx).multiplier (represents_self hy)).canonical

theorem power5_canonical (hx : canonical x = true) : canonical (power5 x) = true :=
  (represents_self hx).power5.canonical

end

theorem sumTree_eq_sum {x : Vec} (hx : x.all canonical = true) : sumTree x = Value.sum x :=
  (sumTree_represents hx).eq_residue (fieldSum_eq_cast x)

end Sys2Proof
end

section
/-! PROOFS. The response of each instruction: its length, that it answers the command, and what canonical
operands make of it (spec/30_encoding.md R66, R67, R73). -/

namespace Sys2Proof

open Machine

/-! ## The operand forms with canonical operands -/

section
variable {f v : Word → Word → Word} {g u : Word → Word} {h r : Tuple → Tuple → Tuple} {x y : Vec}

/-- Canonical lanes draw no free word (R73). -/
theorem elementwise2_eq_zipWith (d : Nat) (hx : x.all canonical = true) (hy : y.all canonical = true) :
    elementwise2 f d x y = x.zipWith f y := by
  fun_induction elementwise2 f d x y with
  | case1 d a xs b ys ih =>
    simp only [List.all_cons, Bool.and_eq_true] at hx hy
    simp [lane2, hx.1, hy.1, ih hx.2 hy.2]
  | case2 x d y hne =>
    match x, y, hne with
    | [], _, _ => rfl
    | _ :: _, [], _ => rfl
    | a :: xs, b :: ys, hne => exact (hne a xs b ys rfl rfl).elim

theorem elementwise1_eq_map (d : Nat) (hx : x.all canonical = true) :
    elementwise1 g d x = x.map g := by
  fun_induction elementwise1 g d x with
  | case1 d a xs ih =>
    simp only [List.all_cons, Bool.and_eq_true] at hx
    simp [lane1, hx.1, ih hx.2]
  | case2 => rfl

/-- Canonical tuples draw no free word (R73). -/
theorem tuplewise2_draws (d d' : Nat) (hx : x.all canonical = true) (hy : y.all canonical = true) :
    tuplewise2 h d x y = tuplewise2 h d' x y := by
  fun_induction tuplewise2 h d x y generalizing d' with
  | case1 d a0 a1 a2 a3 xs b0 b1 b2 b3 ys t ih =>
    simp only [List.all_cons, Bool.and_eq_true] at hx hy
    obtain ⟨ha0, ha1, ha2, ha3, hxs⟩ := hx
    obtain ⟨hb0, hb1, hb2, hb3, hys⟩ := hy
    have ht : t = tuple2 h d' ⟨a0, a1, a2, a3⟩ ⟨b0, b1, b2, b3⟩ := by
      simp [t, tuple2, Tuple.canonical, ha0, ha1, ha2, ha3, hb0, hb1, hb2, hb3]
    rw [tuplewise2, ← ht, ih (d' + 4) hxs hys]
  | case2 x d y hne => rw [tuplewise2]; exact hne

/-- A unit with canonical results gives canonical lanes (R61). -/
theorem elementwise2_canonical (d : Nat)
    (hf : ∀ {a b}, canonical a = true → canonical b = true → canonical (f a b) = true)
    (hx : x.all canonical = true) (hy : y.all canonical = true) :
    (elementwise2 f d x y).all canonical = true := by
  fun_induction elementwise2 f d x y with
  | case1 d a xs b ys ih =>
    simp only [List.all_cons, Bool.and_eq_true] at hx hy ⊢
    exact ⟨by simpa [lane2, hx.1, hy.1] using hf hx.1 hy.1, ih hx.2 hy.2⟩
  | case2 => rfl

theorem elementwise1_canonical (d : Nat)
    (hg : ∀ {a}, canonical a = true → canonical (g a) = true) (hx : x.all canonical = true) :
    (elementwise1 g d x).all canonical = true := by
  rw [elementwise1_eq_map d hx, List.all_map, List.all_eq_true]
  exact fun w hw => hg (List.all_eq_true.1 hx w hw)

theorem tuplewise2_canonical (d : Nat)
    (hh : ∀ {a b}, a.canonical = true → b.canonical = true → (h a b).canonical = true)
    (hx : x.all canonical = true) (hy : y.all canonical = true) :
    (tuplewise2 h d x y).all canonical = true := by
  fun_induction tuplewise2 h d x y with
  | case1 d a0 a1 a2 a3 xs b0 b1 b2 b3 ys t ih =>
    simp only [List.all_cons, Bool.and_eq_true] at hx hy ⊢
    obtain ⟨ha0, ha1, ha2, ha3, hxs⟩ := hx
    obtain ⟨hb0, hb1, hb2, hb3, hys⟩ := hy
    have ha := Tuple.canonical_iff (t := ⟨a0, a1, a2, a3⟩).2 ⟨ha0, ha1, ha2, ha3⟩
    have hb := Tuple.canonical_iff (t := ⟨b0, b1, b2, b3⟩).2 ⟨hb0, hb1, hb2, hb3⟩
    have ht : t.canonical = true := by simpa [t, tuple2, ha, hb] using hh ha hb
    obtain ⟨h0, h1, h2, h3⟩ := Tuple.canonical_iff.1 ht
    exact ⟨h0, h1, h2, h3, ih hxs hys⟩
  | case2 => rfl

theorem reduction_canonical {s : Vec → Word} (d : Nat) (hs : canonical (s x) = true)
    (hx : x.all canonical = true) : (reduction s d x).all canonical = true := by
  have hzero : canonical 0#32 = true := rfl
  simp [reduction, hx, hs, hzero]

/-! ## The operand forms answer what their units compute -/

/-- Where unit and value function agree on canonical words, the lanes answer the command (R67 a). -/
theorem elementwise2_answers (d : Nat)
    (hf : ∀ {a b}, canonical a = true → canonical b = true → f a b = v a b) :
    lanesAnswer2 v x y (elementwise2 f d x y) := by
  intro i a b hx hy ha hb
  rw [elementwise2_lane hx hy, lane2, ha, hb, ← hf ha hb]
  rfl

theorem elementwise1_answers (d : Nat) (hg : ∀ {a}, canonical a = true → g a = u a) :
    lanesAnswer1 u x (elementwise1 g d x) := by
  intro i a hx ha
  rw [elementwise1_lane hx, lane1, ha, ← hg ha]
  rfl

theorem tuplewise2_answers (d : Nat)
    (hh : ∀ {a b}, a.canonical = true → b.canonical = true → h a b = r a b) :
    tuplesAnswer r x y (tuplewise2 h d x y) := by
  intro k a b hx hy ha hb
  rw [tuplewise2_tuple hx hy, tuple2, ha, hb, ← hh ha hb]
  rfl

theorem reduction_answers {s : Vec → Word} (d : Nat)
    (hs : x.all canonical = true → s x = Value.sum x) : sumAnswers x (reduction s d x) := by
  refine ⟨fun hx => by simp [reduction, hx, hs hx], fun i hpos hlt => ?_⟩
  obtain ⟨j, rfl⟩ := Nat.exists_eq_succ_of_ne_zero hpos.ne'
  simp only [reduction_length] at hlt
  have hj : j < x.length - 1 := by omega
  simp [reduction, hj]

end

/-! ## The response of an instruction -/

/-- The words with which `exec` responds when `d` is the index of the next free word, none for a
reserved operation. -/
def Instr.response (d : Nat) : Instr → Vec
  | .add x y => elementwise2 adder d x y
  | .sub x y => elementwise2 subtractor d x y
  | .mul x y => elementwise2 multiplier d x y
  | .pow5 x _ => elementwise1 power5 d x
  | .sum x _ => reduction sumTree d x
  | .mulext x y => tuplewise2 extMultiplier d x y
  | .reserved6 _ _ => []
  | .reserved7 _ _ => []

/-- An operation responds, and does nothing else (R71). -/
theorem exec_of_isOperation {i : Instr} (hop : i.isOperation = true) (s : State) :
    exec i s = .next (s.respond (i.response s.draws)) := by
  cases i with
  | reserved6 => cases hop
  | reserved7 => cases hop
  | _ => rfl

/-- A reserved operation is refused by the name of its value (R72). -/
theorem exec_of_reserved {i : Instr} (hop : i.isOperation = false) (s : State) :
    exec i s = .refused (.reservedOperation i.toCmd.op) := by
  cases i with
  | reserved6 => rfl
  | reserved7 => rfl
  | _ => cases hop

/-- `exec` goes on exactly for the six operations. -/
theorem exec_next_iff {i : Instr} {s t : State} :
    exec i s = .next t ↔ i.isOperation = true ∧ t = s.respond (i.response s.draws) := by
  refine ⟨fun h => ?_, fun ⟨hop, ht⟩ => ht ▸ exec_of_isOperation hop s⟩
  cases hop : i.isOperation with
  | true => exact ⟨rfl, Host.Outcome.next.inj (h.symm.trans (exec_of_isOperation hop s))⟩
  | false => cases h.symm.trans (exec_of_reserved hop s)

theorem instr_wf_iff {i : Instr} :
    i.wf = true ↔ i.toCmd.x.length = Config.nlane ∧ i.toCmd.y.length = Config.nlane := by
  cases i <;> simp [Instr.wf, Instr.wfAt, Instr.toCmd, vecOk]

/-- A response has NLANE words (R66). -/
theorem response_length {i : Instr} (hwf : i.wf = true) (hop : i.isOperation = true) (d : Nat) :
    (i.response d).length = Config.nlane := by
  obtain ⟨hx, hy⟩ := instr_wf_iff.1 hwf
  have hpos := Config.nlane_pos
  cases i with
  | reserved6 => cases hop
  | reserved7 => cases hop
  | mulext x y => exact tuplewise2_length _ _ _ x y hx hy
  | sum x y =>
    have hlen : x.length = Config.nlane := hx
    rw [Instr.response, reduction_length]
    omega
  | pow5 x y => exact (elementwise1_length _ _).trans hx
  | _ => simp_all [Instr.response, Instr.toCmd]

/-- Whatever free words are drawn, the response of an operation answers its command (R67, R73). -/
theorem response_answers {i : Instr} (hwf : i.wf = true) (hop : i.isOperation = true) (d : Nat) :
    Answers i (i.response d) := by
  have hlen : (i.response d).length = i.toCmd.x.length :=
    (response_length hwf hop d).trans (instr_wf_iff.1 hwf).1.symm
  cases i with
  | add => exact ⟨hlen, elementwise2_answers d adder_eq_add⟩
  | sub => exact ⟨hlen, elementwise2_answers d subtractor_eq_sub⟩
  | mul => exact ⟨hlen, elementwise2_answers d multiplier_eq_mul⟩
  | pow5 => exact ⟨hlen, elementwise1_answers d power5_eq_pow5⟩
  | sum => exact ⟨hlen, reduction_answers d sumTree_eq_sum⟩
  | mulext => exact ⟨hlen, tuplewise2_answers d extMultiplier_eq_mulext⟩
  | reserved6 => cases hop
  | reserved7 => cases hop

/-- Canonical operands give a canonical response (R61, R208). -/
theorem response_canonical {i : Instr} (hcanon : i.operandsCanonical = true) (d : Nat) :
    (i.response d).all canonical = true := by
  cases i <;> simp only [Instr.operandsCanonical, Bool.and_eq_true] at hcanon
  case add => exact elementwise2_canonical d adder_canonical hcanon.1 hcanon.2
  case sub => exact elementwise2_canonical d subtractor_canonical hcanon.1 hcanon.2
  case mul => exact elementwise2_canonical d multiplier_canonical hcanon.1 hcanon.2
  case pow5 => exact elementwise1_canonical d power5_canonical hcanon
  case sum => exact reduction_canonical d (sumTree_represents hcanon).canonical hcanon
  case mulext => exact tuplewise2_canonical d extMultiplier_canonical hcanon.1 hcanon.2
  case reserved6 => rfl
  case reserved7 => rfl

/-- Canonical operands draw no free word: the response is the command's alone (R20, R47). -/
theorem response_draws {i : Instr} (hcanon : i.operandsCanonical = true) (d d' : Nat) :
    i.response d = i.response d' := by
  cases i <;> simp only [Instr.operandsCanonical, Bool.and_eq_true] at hcanon
  case mulext => exact tuplewise2_draws d d' hcanon.1 hcanon.2
  case pow5 => simp only [Instr.response, elementwise1_eq_map _ hcanon]
  case sum => simp only [Instr.response, reduction, hcanon, if_true]
  case reserved6 => rfl
  case reserved7 => rfl
  all_goals simp only [Instr.response, elementwise2_eq_zipWith _ hcanon.1 hcanon.2]

/-- Settles O27, by the response lemmas of the six operations. -/
theorem canonicalResponseDependsOnCommandAlone :
    Obligations.CanonicalResponseDependsOnCommandAlone := by
  intro i hwf hop hcanon
  refine ⟨i.response 0, response_length hwf hop 0,
    List.all_eq_true.1 (response_canonical hcanon 0), response_answers hwf hop 0, fun s => ?_⟩
  exact ⟨_, by rw [exec_of_isOperation hop, response_draws hcanon s.draws 0]; rfl⟩

end Sys2Proof
end

section
/-! PROOFS. The phases of a rising edge, what each of them keeps, and the statements on the ports, the queue and
the responses (spec/10_state.md sections 7 and 8). -/

namespace Sys2Proof.Machine

/-! ## The phases of an edge, case by case -/

section
variable {p : PortIn} {s : State} {c : Cmd}

theorem acceptFrom_accepts (hvalid : p.cmdValid = true) (hready : s.cmdReady = true) :
    s.acceptFrom p =
      { s with q := s.q ++ [p.cmd], issued := s.issued ++ [p.cmd], cmdReady := false, waiting := none } := by
  simp [State.acceptFrom, hvalid, hready]

theorem acceptFrom_waits (hvalid : p.cmdValid = true) (hready : s.cmdReady = false) :
    s.acceptFrom p = { s with waiting := some p.cmd } := by
  simp [State.acceptFrom, hvalid, hready]

theorem acceptFrom_without_valid (hvalid : p.cmdValid = false) :
    s.acceptFrom p = { s with waiting := none } := by
  simp [State.acceptFrom, hvalid]

@[simp] theorem acceptFrom_rspValid (p : PortIn) (s : State) : (s.acceptFrom p).rspValid = s.rspValid := by
  rcases acceptFrom_cases p s with ⟨_, _, h⟩ | ⟨_, _, h⟩ | ⟨_, h⟩ <;> rw [h]

@[simp] theorem acceptFrom_received (p : PortIn) (s : State) : (s.acceptFrom p).received = s.received := by
  rcases acceptFrom_cases p s with ⟨_, _, h⟩ | ⟨_, _, h⟩ | ⟨_, h⟩ <;> rw [h]

@[simp] theorem acceptFrom_inputs (p : PortIn) (s : State) : (s.acceptFrom p).inputs = s.inputs := by
  rcases acceptFrom_cases p s with ⟨_, _, h⟩ | ⟨_, _, h⟩ | ⟨_, h⟩ <;> rw [h]

@[simp] theorem acceptFrom_draws (p : PortIn) (s : State) : (s.acceptFrom p).draws = s.draws := by
  rcases acceptFrom_cases p s with ⟨_, _, h⟩ | ⟨_, _, h⟩ | ⟨_, h⟩ <;> rw [h]

theorem acceptFrom_q (p : PortIn) (s : State) :
    (s.acceptFrom p).q = s.q ∨ (s.acceptFrom p).q = s.q ++ [p.cmd] := by
  rcases acceptFrom_cases p s with ⟨_, _, h⟩ | ⟨_, _, h⟩ | ⟨_, h⟩ <;> simp [h]

/-- A command is accepted behind the head of the queue. -/
theorem acceptFrom_head (p : PortIn) (hq : s.q.head? = some c) :
    (s.acceptFrom p).q.head? = some c := by
  rcases acceptFrom_q p s with h | h <;> simp [h, hq]

theorem deliverTo_of_not_ready (hready : p.rspReady = false) (s : State) :
    deliverTo p s = .next s := by
  simp [deliverTo, hready]

theorem deliverTo_of_offer {rest : List Cmd} (hvalid : s.rspValid = true) (hready : p.rspReady = true)
    (hq : s.q = c :: rest) : deliverTo p s = exec (decodeCmd c) s.popHead := by
  simp [deliverTo, hvalid, hready, hq]

/-- What Deliver did on an edge that goes on: nothing, or the host has the response to the head. -/
theorem deliverTo_next {m : State} (h : deliverTo p s = .next m) :
    (((s.rspValid && p.rspReady) = false ∨ s.q = []) ∧ m = s) ∨
      ∃ c rest, s.q = c :: rest ∧ s.rspValid = true ∧ p.rspReady = true ∧
        (decodeCmd c).isOperation = true ∧ m = s.popHead.respond ((decodeCmd c).response s.draws) := by
  rcases deliverTo_cases p s with ⟨hno, hm⟩ | ⟨c, rest, hq, hvalid, hready, hexec⟩
  · exact .inl ⟨hno, (Host.Outcome.next.inj (hm.symm.trans h)).symm⟩
  · obtain ⟨hop, hm⟩ := exec_next_iff.1 (hexec.symm.trans h)
    exact .inr ⟨c, rest, hq, hvalid, hready, hop, hm⟩

/-- The wires `rsp_z` while an offer is made: the response to the head, drawn from the free words as
they stand (R32). -/
theorem rspZ_of_offer (hvalid : s.rspValid = true) (hq : s.q.head? = some c) :
    s.rspZ = if (decodeCmd c).isOperation then some ((decodeCmd c).response s.draws) else none := by
  obtain ⟨rest, hq⟩ := List.head?_eq_some_iff.1 hq
  cases hop : (decodeCmd c).isOperation with
  | true => simp [State.rspZ, hvalid, hq, exec_of_isOperation hop]
  | false => simp [State.rspZ, hvalid, hq, exec_of_reserved hop]

/-! ## The step, case by case -/

/-- An edge without reset, with a host that holds what it presents. -/
theorem step_of_no_reset (hrst : s.pins.rst = false) (hkeep : s.keepsCommand s.pins = true) :
    step s = thenNext (deliverTo s.pins s.sampled.drive) (State.acceptFrom s.pins) := by
  have hkeep' : s.sampled.keepsCommand s.pins = true := hkeep
  simp [step, edge, hrst, hkeep']

/-- An edge on which no response is taken. -/
theorem step_of_no_delivery (hrst : s.pins.rst = false) (hkeep : s.keepsCommand s.pins = true)
    (hready : s.pins.rspReady = false) : step s = .next (s.sampled.drive.acceptFrom s.pins) := by
  rw [step_of_no_reset hrst hkeep, deliverTo_of_not_ready hready]
  rfl

/-- An edge on which the response to the head is taken. -/
theorem step_of_delivery {rest : List Cmd} (hrst : s.pins.rst = false)
    (hkeep : s.keepsCommand s.pins = true) (hq : s.q = c :: rest)
    (hoffer : s.rspValid = true ∨ s.rspWait = 0) (hready : s.pins.rspReady = true) :
    step s = thenNext (exec (decodeCmd c) s.sampled.drive.popHead) (State.acceptFrom s.pins) := by
  have hvalid : s.sampled.drive.rspValid = true := rspValidNow_iff.2 ⟨by simp [hq], hoffer⟩
  rw [step_of_no_reset hrst hkeep, deliverTo_of_offer hvalid hready hq]

/-- `edge_cases` for the step. -/
theorem step_cases {t : State} (h : step s = .next t) :
    (s.pins.rst = true ∧ t = s.sampled.resetEdge) ∨
      (s.pins.rst = false ∧ s.keepsCommand s.pins = true ∧
        ∃ m, deliverTo s.pins s.sampled.drive = .next m ∧ t = m.acceptFrom s.pins) :=
  edge_cases h

/-- The string that the decoder of the table reads is the command of `fetchedCmd`. -/
theorem decodeCmd_fetchedCmd {nbits w : Nat} {i : Instr} (h : decodeTableWord nbits w = some i) :
    decodeCmd (fetchedCmd nbits w) = i := by
  unfold decodeTableWord decodeString at h
  cases hfits : fitsCommand Config.nlane (w % 2 ^ nbits) with
  | true => simpa [hfits, fetchedCmd] using h
  | false => simp [hfits] at h

end

/-! ## Each step on the two-step machine -/

section
variable {p : PortIn} {s m : State}

/-- Deliver of the edge is Deliver of the two-step machine, or nothing (R30). -/
theorem deliverTo_twoStep (hq : ∀ c ∈ s.q, c.wf = true) (h : deliverTo p s = .next m) :
    TwoStep.of m = TwoStep.of s ∨
      (p.rspReady = true ∧ TwoStep.Deliver (TwoStep.of s) (TwoStep.of m)) := by
  rcases deliverTo_next h with ⟨-, rfl⟩ | ⟨c, rest, hhead, -, hready, hop, rfl⟩
  · exact .inl rfl
  · have hwf : (decodeCmd c).wf = true := (decodeCmd_wf c).trans (hq c (by simp [hhead]))
    have hdeliver := TwoStep.Deliver.mk c rest s.issued s.received _ (response_answers hwf hop s.draws)
    refine .inr ⟨hready, ?_⟩
    simpa [TwoStep.of, hhead] using hdeliver

/-- Accept of the edge is Accept of the two-step machine, or nothing (R30). -/
theorem acceptFrom_twoStep (hroom : s.cmdReady = true → s.q.length < Config.depth) :
    TwoStep.of (s.acceptFrom p) = TwoStep.of s ∨
      (p.cmdValid = true ∧ TwoStep.Accept p.cmd (TwoStep.of s) (TwoStep.of (s.acceptFrom p))) := by
  rcases acceptFrom_cases p s with ⟨hvalid, hready, h⟩ | ⟨_, _, h⟩ | ⟨_, h⟩ <;> rw [h]
  · exact .inr ⟨hvalid, .mk _ _ _ (hroom hready)⟩
  · exact .inl rfl
  · exact .inl rfl

end

/-! ## What each phase of an edge keeps -/

section
variable {p : PortIn} {s m : State}

theorem drive_queueOk (h : s.q.length ≤ Config.depth) : s.drive.QueueOk :=
  ⟨h, fun hready => (cmdReadyNow_iff.1 hready).2, fun hvalid => (rspValidNow_iff.1 hvalid).1⟩

theorem deliverTo_queueOk (hok : s.QueueOk) (h : deliverTo p s = .next m) : m.QueueOk := by
  rcases deliverTo_next h with ⟨-, rfl⟩ | ⟨c, rest, -, -, -, -, rfl⟩
  · exact hok
  · obtain ⟨hdepth, hready, -⟩ := hok
    have htail : s.q.tail.length ≤ s.q.length := by simp
    exact ⟨htail.trans hdepth, fun hr => htail.trans_lt (hready hr), nofun⟩

theorem acceptFrom_queueOk (p : PortIn) (hok : s.QueueOk) : (s.acceptFrom p).QueueOk := by
  have ⟨_, hroom, _⟩ := hok
  rcases acceptFrom_cases p s with ⟨_, hready, h⟩ | ⟨_, _, h⟩ | ⟨_, h⟩ <;> rw [h]
  · exact ⟨by simpa using hroom hready, nofun, fun _ => by simp⟩
  · exact hok
  · exact hok

theorem sampled_shaped (h : s.Shaped) : s.sampled.Shaped := by
  obtain ⟨hq, hinputs, hrest⟩ := h
  exact ⟨hq, fun p hp => hinputs p (List.mem_of_mem_tail hp), hrest⟩

/-- The ports carry a command of this build, also when the host's list is used up. -/
theorem pins_cmd_wf (h : s.Shaped) : s.pins.cmd.wf = true := by
  obtain ⟨-, hinputs, hwaiting, -⟩ := h
  unfold State.pins
  cases hi : s.inputs with
  | cons p ps => exact hinputs p (by simp [hi])
  | nil =>
    cases hw : s.waiting with
    | none => simp [quietPins, PortIn.cmd, cmd_wf_iff, zeroVec]
    | some c => exact hwaiting c hw

theorem resetEdge_shaped (h : s.Shaped) : s.resetEdge.Shaped := by
  obtain ⟨-, hinputs, -⟩ := h
  exact ⟨nofun, hinputs, nofun, nofun, nofun⟩

theorem deliverTo_shaped (hs : s.Shaped) (h : deliverTo p s = .next m) : m.Shaped := by
  rcases deliverTo_next h with ⟨-, rfl⟩ | ⟨c, rest, hhead, -, -, hop, rfl⟩
  · exact hs
  · obtain ⟨hq, hinputs, hwaiting, hissued, hreceived⟩ := hs
    have hwf : (decodeCmd c).wf = true := (decodeCmd_wf c).trans (hq c (by simp [hhead]))
    refine ⟨fun d hd => hq d (List.mem_of_mem_tail hd), hinputs, hwaiting, hissued, ?_⟩
    exact List.forall_mem_append.2
      ⟨hreceived, by simpa [vecOk_iff] using response_length hwf hop s.draws⟩

theorem acceptFrom_shaped (hs : s.Shaped) (hp : p.cmd.wf = true) : (s.acceptFrom p).Shaped := by
  obtain ⟨hq, hinputs, hwaiting, hissued, hreceived⟩ := hs
  have hone : ∀ c ∈ [p.cmd], c.wf = true := by simpa using hp
  rcases acceptFrom_cases p s with ⟨_, _, h⟩ | ⟨_, _, h⟩ | ⟨_, h⟩ <;> rw [h]
  · exact ⟨List.forall_mem_append.2 ⟨hq, hone⟩, hinputs, nofun,
      List.forall_mem_append.2 ⟨hissued, hone⟩, hreceived⟩
  · exact ⟨hq, hinputs, by simpa using hp, hissued, hreceived⟩
  · exact ⟨hq, hinputs, nofun, hissued, hreceived⟩

end

/-! ## The obligations on the ports and the queue -/

/-- Settles O35: each half of an edge is its step of the two-step machine, and a command is accepted in
the room there was before the head left. -/
theorem everyEdgeIsDeliverThenAccept : Obligations.EveryEdgeIsDeliverThenAccept := by
  intro s t hs h
  rcases step_cases h with ⟨hrst, rfl⟩ | ⟨hrst, -, m, hm, rfl⟩
  · exact .inl ⟨hrst, rfl⟩
  · obtain ⟨hq, -⟩ := hs
    have hroom : m.cmdReady = true → m.q.length < Config.depth := by
      rcases deliverTo_next hm with ⟨-, rfl⟩ | ⟨c, rest, hhead, -, -, -, rfl⟩
      · exact fun hready => (cmdReadyNow_iff.1 hready).2
      · intro hready
        have hlt : s.q.length < Config.depth := (cmdReadyNow_iff.1 hready).2
        simp
        omega
    have hdeliver := deliverTo_twoStep (s := s.sampled.drive) hq hm
    exact .inr ⟨hrst, TwoStep.of m, hdeliver, acceptFrom_twoStep hroom⟩

/-- Settles O36, phase by phase: the CORE drives its outputs, Deliver shortens the queue, Accept needs
`cmd_ready`. -/
theorem everyStepKeepsQueueBound : Obligations.EveryStepKeepsQueueBound := by
  intro s t hok h
  rcases step_cases h with ⟨-, rfl⟩ | ⟨-, -, m, hm, rfl⟩
  · exact ⟨Nat.zero_le _, nofun, nofun⟩
  · exact acceptFrom_queueOk _ (deliverTo_queueOk (drive_queueOk (s := s.sampled) hok.1) hm)

/-- Settles O37, phase by phase. -/
theorem everyStepKeepsLaneCount : Obligations.EveryStepKeepsLaneCount := by
  intro s t hs h
  rcases step_cases h with ⟨-, rfl⟩ | ⟨-, -, m, hm, rfl⟩
  · exact resetEdge_shaped (sampled_shaped hs)
  · have hdrive : s.sampled.drive.Shaped := sampled_shaped hs
    exact acceptFrom_shaped (deliverTo_shaped hdrive hm) (pins_cmd_wf hs)

/-- Settles O41: an edge without delivery changes neither the head of the queue nor the free words, of
which `rsp_z` is a function. -/
theorem offeredResponseIsHeld : Obligations.OfferedResponseIsHeld := by
  intro s t hrst hready hoffer h
  rcases step_cases h with ⟨hreset, -⟩ | ⟨-, hkeep, -⟩
  · simp [hrst] at hreset
  · obtain rfl := Host.Outcome.next.inj ((step_of_no_delivery hrst hkeep hready).symm.trans h)
    obtain ⟨hne, -⟩ := rspValidNow_iff.1 hoffer
    obtain ⟨c, hc⟩ := Option.ne_none_iff_exists'.1 (mt List.head?_eq_none_iff.1 hne)
    have hhead := acceptFrom_head s.pins (s := s.sampled.drive) hc
    have hvalid := (acceptFrom_rspValid s.pins s.sampled.drive).trans hoffer
    have hnext : (s.sampled.drive.acceptFrom s.pins).drive.rspValid = true :=
      rspValidNow_iff.2 ⟨fun hnil => by simp [hnil] at hhead, .inl hvalid⟩
    refine ⟨hvalid, hnext, hhead.trans hc.symm, ?_⟩
    rw [rspZ_of_offer hnext hhead, rspZ_of_offer hoffer hc, State.drive_draws, acceptFrom_draws]

/-- Settles O42: Deliver hands over the response to the head, and Accept adds behind it. -/
theorem deliveredResponseIsTheOneOffered : Obligations.DeliveredResponseIsTheOneOffered := by
  intro s t hrst hready hoffer h
  rcases step_cases h with ⟨hreset, -⟩ | ⟨-, -, m, hm, rfl⟩
  · simp [hrst] at hreset
  rcases deliverTo_next hm with ⟨hno | hempty, -⟩ | ⟨c, rest, hq, -, -, hop, rfl⟩
  · exact absurd hno (by rw [hoffer, hready]; decide)
  · exact ((rspValidNow_iff.1 hoffer).1 hempty).elim
  · have hz := (rspZ_of_offer hoffer (c := c) (by rw [hq]; rfl)).trans (if_pos hop)
    exact ⟨_, hz, acceptFrom_received _ _, acceptFrom_q _ _⟩

/-- Settles O28. -/
theorem resetLeavesQueueEmptyAndOutputsLow : Obligations.ResetLeavesQueueEmptyAndOutputsLow :=
  ⟨rfl, rfl, rfl, rfl⟩

/-- Settles O30, by the step on which the response to the head is taken. -/
theorem stepRunsTheDecodedCommand : Obligations.StepRunsTheDecodedCommand := by
  rintro s c rest i hq rfl - hrst hkeep hoffer hready
  exact ⟨⟨by simp [hq], rfl, rfl, rfl⟩, step_of_delivery hrst hkeep hq hoffer hready⟩

/-- Settles O31: the placed command is at the head, offered, and the host takes its response. -/
theorem fetchedWordIsRun : Obligations.FetchedWordIsRun := by
  intro s nbits w i h
  rw [← decodeCmd_fetchedCmd h]
  exact step_of_delivery (s := s.withFetchWord nbits w) rfl rfl rfl (.inl rfl) rfl

/-- Settles O32: with no response taken, the edge is Accept on the driven outputs. -/
theorem acceptAppendsTheCommand : Obligations.AcceptAppendsTheCommand := by
  intro s hrst hkeep hvalid hready hwait hroom
  have hcmd : s.sampled.drive.cmdReady = true := cmdReadyNow_iff.2 ⟨hwait, hroom⟩
  refine ⟨_, step_of_no_delivery hrst hkeep hready, ?_⟩
  rw [acceptFrom_accepts hvalid hcmd]
  exact ⟨rfl, rfl, rfl, rfl, rfl⟩

/-- Settles O33: with no response taken, the edge leaves the command waiting. -/
theorem commandWaitsWhileCoreIsNotReady : Obligations.CommandWaitsWhileCoreIsNotReady := by
  intro s hrst hkeep hvalid hready hnot
  have hcmd : s.sampled.drive.cmdReady = false := by
    refine Bool.eq_false_iff.2 fun htrue => ?_
    obtain ⟨hwait, hroom⟩ := cmdReadyNow_iff.1 htrue
    exact hnot.elim (· hwait) hroom.not_ge
  refine ⟨_, step_of_no_delivery hrst hkeep hready, ?_⟩
  rw [acceptFrom_waits hvalid hcmd]
  exact ⟨rfl, rfl, rfl, rfl⟩

/-- Settles O34: neither the check of the host, nor Deliver, nor Accept reads the command fields. -/
theorem commandPortsIgnoredWithoutValid : Obligations.CommandPortsIgnoredWithoutValid := by
  intro p p' s hvalid hvalid' hrst hready
  have hkeep : s.keepsCommand p = s.keepsCommand p' := by
    unfold State.keepsCommand
    cases s.waiting <;> simp [hvalid, hvalid']
  have hdeliver : deliverTo p = deliverTo p' := by
    funext m
    simp only [deliverTo, hready]
  have haccept : State.acceptFrom p = State.acceptFrom p' := by
    funext m
    rw [acceptFrom_without_valid hvalid, acceptFrom_without_valid hvalid']
  simp only [edge, hrst, hkeep, hdeliver, haccept]

/-- Settles O43: the ports do not keep the command that waits. -/
theorem changedCommandIsRefused : Obligations.ChangedCommandIsRefused := by
  intro s c hwaiting hrst hchanged
  have hkeep : s.sampled.keepsCommand s.pins = false := by
    refine Bool.eq_false_iff.2 fun htrue => ?_
    obtain ⟨hvalid, hsame⟩ := keepsCommand_iff.1 htrue c hwaiting
    exact hchanged.elim (fun hno => by simp [hvalid] at hno) (· hsame)
  simp [step, edge, hrst, hkeep]

end Sys2Proof.Machine
end

section
/-! PROOFS. Where lanes and tuples sit (spec/20_memory.md section 2). -/

namespace Sys2Proof

open Machine

/-- Lane `i` is bits `[32i+31 : 32i]` of its bus (R31, R42). -/
theorem lanesOf_getElem? {n i : Nat} (v : Nat) (h : i < n) :
    (lanesOf n v)[i]? = some (BitVec.ofNat 32 (v / 2 ^ (32 * i))) := by
  induction n generalizing v i with
  | zero => exact absurd h (Nat.not_lt_zero i)
  | succ n ih =>
    cases i with
    | zero => simp [lanesOf]
    | succ i =>
      rw [lanesOf, List.getElem?_cons_succ, ih _ (Nat.lt_of_succ_lt_succ h), Nat.div_div_eq_div_mul,
        ← Nat.pow_add, Nat.add_comm 32, ← Nat.mul_succ]

/-- Lane `i` of a bus that begins at bit `k` of a string is the 32 bits `32i` places further on (R65). -/
theorem lanesOf_div_getElem? {n i : Nat} (v k : Nat) (h : i < n) :
    (lanesOf n (v / 2 ^ k))[i]? = some (BitVec.ofNat 32 (v / 2 ^ (k + 32 * i))) := by
  rw [lanesOf_getElem? _ h, Nat.div_div_eq_div_mul, ← Nat.pow_add]

/-- Settles O51, by the place of a lane on a bus that begins at bit 0, 3 or `3 + 32n`. -/
theorem laneSitsAtItsBits : Obligations.LaneSitsAtItsBits := fun n v _ hi =>
  ⟨lanesOf_getElem? v hi, rfl, lanesOf_div_getElem? v 3 hi, lanesOf_div_getElem? v (3 + 32 * n) hi⟩

/-- Settles O52, by induction on the tuple's number: tuple `k + 1` of a vector is tuple `k` of the
vector without its first four lanes. -/
theorem tupleIsFourContiguousLanes : Obligations.TupleIsFourContiguousLanes := by
  intro v k t
  fun_induction tupleAt v k with
  | case1 a0 a1 a2 a3 _ =>
    cases t
    simp
  | case2 _ _ _ _ rest k ih => simpa [Nat.mul_succ] using ih
  | case3 v k hzero hsucc =>
    have hshort : v.length ≤ 3 := by
      match v, k, hzero, hsucc with
      | _ :: _ :: _ :: _ :: _, 0, hzero, _ => exact (hzero _ _ _ _ _ rfl rfl).elim
      | _ :: _ :: _ :: _ :: _, k + 1, _, hsucc => exact (hsucc _ _ _ _ _ k rfl rfl).elim
      | [], _, _, _ => simp
      | [_], _, _, _ => simp
      | [_, _], _, _, _ => simp
      | [_, _, _], _, _, _ => simp
    have hnone : v[4 * k + 3]? = none := List.getElem?_eq_none (by omega)
    simp [hnone]

end Sys2Proof
end

section
/-! PROOFS. Arrays of the host cut into vectors (spec/20_memory.md section 2, spec/30_encoding.md section 6). -/

namespace Sys2Proof.Machine

section
variable {n : Nat} {pad : Word} {a b : Vec}

theorem padTo_length (h : a.length ≤ n) : (padTo n pad a).length = n := by
  simp [padTo, h]

theorem padTo_canonical (n : Nat) (ha : a.all canonical = true) (hpad : canonical pad = true) :
    (padTo n pad a).all canonical = true := by
  simp [padTo, ha, hpad]

theorem take_drop_canonical (n : Nat) (ha : a.all canonical = true) :
    (a.take n).all canonical = true ∧ (a.drop n).all canonical = true := by
  rwa [← List.take_append_drop n a, List.all_append, Bool.and_eq_true] at ha

/-- Every cut is a whole vector. -/
theorem cutFirst_length (k : Nat) {v : Vec} (h : v ∈ cutFirst n pad k a) : v.length = n := by
  induction k generalizing a with
  | zero => cases h
  | succ k ih =>
    rcases List.mem_cons.1 h with rfl | h
    · exact padTo_length (List.length_take_le n a)
    · exact ih h

/-- Enough cuts hold the array, padded to their lanes. -/
theorem cutFirst_flatten {k : Nat} (h : a.length ≤ k * n) :
    (cutFirst n pad k a).flatten = padTo (k * n) pad a := by
  induction k generalizing a with
  | zero =>
    obtain rfl : a = [] := by simpa using h
    simp [cutFirst, padTo]
  | succ k ih =>
    rw [Nat.succ_mul] at h ⊢
    have hrest : (a.drop n).length ≤ k * n := by rw [List.length_drop]; omega
    rw [cutFirst, List.flatten_cons, ih hrest]
    rcases Nat.le_total n a.length with hn | hn
    · have hm : k * n - (a.length - n) = k * n + n - a.length := by omega
      simp [padTo, hn, hm, ← List.append_assoc]
    · have hm : n - a.length + k * n = k * n + n - a.length := by omega
      simp [padTo, ← hm, List.take_of_length_le hn, List.drop_eq_nil_of_le hn]

/-- The cuts of an array hold it, followed by fewer padding words than a vector has lanes (R79). -/
theorem cut_flatten (pad : Word) (a : Vec) (hn : 0 < n) :
    ∃ m, m < n ∧ (cut n pad a).flatten = a ++ List.replicate m pad := by
  have hmod := Nat.div_add_mod' (a.length + n - 1) n
  have hlt := Nat.mod_lt (a.length + n - 1) hn
  exact ⟨(a.length + n - 1) / n * n - a.length, by omega, cutFirst_flatten (by omega)⟩

/-- What an elementwise operation makes of padding is padding again. -/
theorem zipWith_padTo (f : Word → Word → Word) (n : Nat) (pad : Word) (hlen : a.length = b.length) :
    (padTo n pad a).zipWith f (padTo n pad b) = padTo n (f pad pad) (a.zipWith f b) := by
  simp [padTo, List.zipWith_append hlen, hlen]

/-- With canonical words, an elementwise operation on the cuts gives the cuts of the operation (R67). -/
theorem zipWith_cutFirst {f : Word → Word → Word} (d k : Nat) (hlen : a.length = b.length)
    (ha : a.all canonical = true) (hb : b.all canonical = true) (hpad : canonical pad = true) :
    (cutFirst n pad k a).zipWith (elementwise2 f d) (cutFirst n pad k b) =
      cutFirst n (f pad pad) k (a.zipWith f b) := by
  induction k generalizing a b with
  | zero => rfl
  | succ k ih =>
    obtain ⟨hafirst, harest⟩ := take_drop_canonical n ha
    obtain ⟨hbfirst, hbrest⟩ := take_drop_canonical n hb
    have hfirst : (a.take n).length = (b.take n).length := by simp [hlen]
    have hrest : (a.drop n).length = (b.drop n).length := by simp [hlen]
    simp only [cutFirst, List.zipWith_cons_cons]
    rw [elementwise2_eq_zipWith d (padTo_canonical n hafirst hpad)
      (padTo_canonical n hbfirst hpad), zipWith_padTo f n pad hfirst,
      ih hrest harest hbrest, List.take_zipWith, List.drop_zipWith]

end

/-- Settles O53. -/
theorem cutsCoverEveryElementOnce : Obligations.CutsCoverEveryElementOnce := fun _ pad a hn =>
  ⟨fun _ hv => cutFirst_length _ hv, cut_flatten pad a hn⟩

/-- Settles O55: the responses of the cuts are the cuts of the result, padded with what the operation
makes of the padding. -/
theorem elementwiseByCutsEqualsWhole : Obligations.ElementwiseByCutsEqualsWhole := by
  intro f n d pad a b hn hlen ha hb hpad
  have hresult : (a.zipWith f b).length = a.length := by simp [hlen]
  have hcuts : (cut n pad a).zipWith (elementwise2 f d) (cut n pad b) =
      cut n (f pad pad) (a.zipWith f b) := by
    rw [cut, cut, cut, hresult, ← hlen]
    exact zipWith_cutFirst d _ hlen ha hb hpad
  obtain ⟨m, -, hflat⟩ := cut_flatten (f pad pad) (a.zipWith f b) hn
  rw [hcuts, hflat, List.take_left' hresult]

end Sys2Proof.Machine
end

section
/-! PROOFS. The order of responses (spec/20_memory.md section 6). -/

namespace Sys2Proof.Machine

section
variable {p : PortIn} {s m : State}

/-- Deliver moves the head of the queue to the commands answered, with the response that answers it. -/
theorem deliverTo_inOrder (hq : ∀ c ∈ s.q, c.wf = true) (ho : s.InOrder)
    (h : deliverTo p s = .next m) : m.InOrder := by
  rcases deliverTo_next h with ⟨-, rfl⟩ | ⟨c, rest, hhead, -, -, hop, rfl⟩
  · exact ho
  · obtain ⟨answered, hissued, hanswers⟩ := ho
    have hwf : (decodeCmd c).wf = true := (decodeCmd_wf c).trans (hq c (by simp [hhead]))
    refine ⟨answered ++ [c], by simp [hissued, hhead], ?_⟩
    exact List.rel_append hanswers (.cons (response_answers hwf hop s.draws) .nil)

/-- Accept puts one command at the end of both the queue and the commands on record. -/
theorem acceptFrom_inOrder (p : PortIn) (ho : s.InOrder) : (s.acceptFrom p).InOrder := by
  obtain ⟨answered, hissued, hanswers⟩ := ho
  rcases acceptFrom_cases p s with ⟨_, _, h⟩ | ⟨_, _, h⟩ | ⟨_, h⟩ <;> rw [h]
  · exact ⟨answered, by simp [hissued], hanswers⟩
  · exact ⟨answered, hissued, hanswers⟩
  · exact ⟨answered, hissued, hanswers⟩

end

theorem resetEdge_inOrder (s : State) : s.resetEdge.InOrder := ⟨[], rfl, .nil⟩

/-- Settles O38, phase by phase: Deliver answers the head, and Accept adds behind it. -/
theorem everyStepKeepsResponsesInOrder : Obligations.EveryStepKeepsResponsesInOrder := by
  intro s t hs ho h
  rcases step_cases h with ⟨-, rfl⟩ | ⟨-, -, m, hm, rfl⟩
  · exact resetEdge_inOrder _
  · obtain ⟨hq, -⟩ := hs
    exact acceptFrom_inOrder _ (deliverTo_inOrder (s := s.sampled.drive) hq ho hm)

end Sys2Proof.Machine
end

section
/-! PROOFS. The contract of the operands kept by every edge (spec/30_encoding.md section 1;
spec/70_reset_and_hazards.md section 3). -/

namespace Sys2Proof.Machine

section
variable {p : PortIn} {s m : State}

theorem sampled_canonicalRun (h : s.CanonicalRun) : s.sampled.CanonicalRun := by
  obtain ⟨hq, hinputs, hrest⟩ := h
  exact ⟨hq, fun p hp => hinputs p (List.mem_of_mem_tail hp), hrest⟩

/-- A presented command keeps the contract, also when the host's list is used up. -/
theorem pins_cmd_operandsCanonical (h : s.CanonicalRun) (hvalid : s.pins.cmdValid = true) :
    (decodeCmd s.pins.cmd).operandsCanonical = true := by
  obtain ⟨-, hinputs, hwaiting, -⟩ := h
  unfold State.pins at hvalid ⊢
  cases hi : s.inputs with
  | cons p ps => exact hinputs p (by simp [hi]) (by simpa [hi] using hvalid)
  | nil =>
    cases hw : s.waiting with
    | none => simp [hi, hw, quietPins] at hvalid
    | some c => exact hwaiting c hw

theorem resetEdge_canonicalRun (h : s.CanonicalRun) : s.resetEdge.CanonicalRun := by
  obtain ⟨-, hinputs, -⟩ := h
  exact ⟨nofun, hinputs, nofun, nofun⟩

/-- Deliver adds the response to a command of canonical operands, which is canonical. -/
theorem deliverTo_canonicalRun (hs : s.CanonicalRun) (h : deliverTo p s = .next m) :
    m.CanonicalRun := by
  rcases deliverTo_next h with ⟨-, rfl⟩ | ⟨c, rest, hhead, -, -, -, rfl⟩
  · exact hs
  · obtain ⟨hq, hinputs, hwaiting, hreceived⟩ := hs
    have hcanon := response_canonical (hq c (by simp [hhead])) s.draws
    refine ⟨fun d hd => hq d (List.mem_of_mem_tail hd), hinputs, hwaiting, ?_⟩
    exact List.forall_mem_append.2 ⟨hreceived, by simpa using hcanon⟩

/-- Accept keeps what the ports carry, in the queue or as the command that waits. -/
theorem acceptFrom_canonicalRun (hs : s.CanonicalRun)
    (hp : p.cmdValid = true → (decodeCmd p.cmd).operandsCanonical = true) :
    (s.acceptFrom p).CanonicalRun := by
  obtain ⟨hq, hinputs, hwaiting, hreceived⟩ := hs
  rcases acceptFrom_cases p s with ⟨hvalid, _, h⟩ | ⟨hvalid, _, h⟩ | ⟨_, h⟩ <;> rw [h]
  · exact ⟨List.forall_mem_append.2 ⟨hq, by simpa using hp hvalid⟩, hinputs, nofun, hreceived⟩
  · exact ⟨hq, hinputs, by simpa using hp hvalid, hreceived⟩
  · exact ⟨hq, hinputs, nofun, hreceived⟩

end

/-- Settles O39, phase by phase: only Deliver adds a response, to a command in the queue. -/
theorem everyStepKeepsResponsesCanonical : Obligations.EveryStepKeepsResponsesCanonical := by
  intro s t hs h
  rcases step_cases h with ⟨-, rfl⟩ | ⟨-, -, m, hm, rfl⟩
  · exact resetEdge_canonicalRun (sampled_canonicalRun hs)
  · have hdrive : s.sampled.drive.CanonicalRun := sampled_canonicalRun hs
    exact acceptFrom_canonicalRun (deliverTo_canonicalRun hdrive hm) (pins_cmd_operandsCanonical hs)

end Sys2Proof.Machine
end

section
/-! PROOFS. The decoder and the encoder of command strings are inverse (spec/30_encoding.md sections 2 and 4). -/

namespace Sys2Proof

/-! ## The lanes and their bus -/

/-- The lanes of a bus are read back from it, whatever stands above them (R42). -/
theorem lanesOf_busOf_add (x : Vec) (k : Nat) :
    lanesOf x.length (busOf x + 2 ^ (32 * x.length) * k) = x := by
  induction x with
  | nil => rfl
  | cons w ws ih =>
    have hbus : busOf (w :: ws) + 2 ^ (32 * (w :: ws).length) * k =
        w.toNat + 2 ^ 32 * (busOf ws + 2 ^ (32 * ws.length) * k) := by
      rw [busOf, List.length_cons, Nat.mul_succ, Nat.pow_add]
      ring
    rw [hbus, List.length_cons, lanesOf, Nat.add_mul_div_left _ _ (Nat.two_pow_pos 32),
      Nat.div_eq_of_lt w.isLt, Nat.zero_add, ih]
    congr 1
    exact BitVec.eq_of_toNat_eq (by simp [Nat.mod_eq_of_lt w.isLt])

theorem lanesOf_busOf (x : Vec) : lanesOf x.length (busOf x) = x := by
  simpa using lanesOf_busOf_add x 0

/-- The bus of `n` lanes carries the lowest `32n` bits of what they were cut from (R42). -/
theorem busOf_lanesOf (n v : Nat) : busOf (lanesOf n v) = v % 2 ^ (32 * n) := by
  induction n generalizing v with
  | zero => simp [lanesOf, busOf, Nat.mod_one]
  | succ n ih =>
    rw [lanesOf, busOf, ih, BitVec.toNat_ofNat, Nat.mul_succ, Nat.add_comm (32 * n), Nat.pow_add,
      ← Nat.mod_mul]

/-! ## The operation map -/

@[simp] theorem decodeCmd_toCmd (i : Instr) : decodeCmd i.toCmd = i := by
  cases i <;> rfl

/-- All eight values of the field `op` stand for different instructions (R71, R72). -/
@[simp] theorem toCmd_decodeCmd (c : Cmd) : (decodeCmd c).toCmd = c := by
  have hvalues : ∀ op : BitVec 3,
      op = 0 ∨ op = 1 ∨ op = 2 ∨ op = 3 ∨ op = 4 ∨ op = 5 ∨ op = 6 ∨ op = 7 := by decide
  obtain ⟨op, x, y⟩ := c
  rcases hvalues op with rfl | rfl | rfl | rfl | rfl | rfl | rfl | rfl <;> rfl

theorem toCmd_wfAt (n : Nat) (i : Instr) : i.toCmd.wfAt n = i.wfAt n := by
  cases i <;> rfl

theorem cmd_wfAt_iff {n : Nat} {c : Cmd} : c.wfAt n = true ↔ c.x.length = n ∧ c.y.length = n := by
  simp [Cmd.wfAt, vecOk]

/-! ## Commands and their strings -/

section
variable {n v : Nat} {c : Cmd}

/-- The decoder takes exactly the strings of `3 + 64n` bits (R65). -/
theorem fitsCommand_iff (hn : 0 < n) : fitsCommand n v = true ↔ v < 2 ^ (3 + 64 * n) := by
  rw [fitsCommand, decide_eq_true_iff, Nat.div_lt_iff_lt_mul (by decide)]
  rcases Nat.eq_zero_or_pos v with rfl | hv
  · simpa using hn
  · rw [← Nat.log2_lt hv.ne']
    omega

theorem bitsOfCmd_lt (hc : c.wfAt n = true) : bitsOfCmd n c < 2 ^ (3 + 64 * n) := by
  obtain ⟨hx, hy⟩ := cmd_wfAt_iff.1 hc
  have hop := c.op.isLt
  have hbx : busOf c.x < 2 ^ (32 * n) := hx ▸ busOf_lt c.x
  have hby : busOf c.y < 2 ^ (32 * n) := hy ▸ busOf_lt c.y
  have hpow : 2 ^ (3 + 64 * n) = 2 ^ 3 * (2 ^ (32 * n) * 2 ^ (32 * n)) := by
    rw [← Nat.pow_add, ← Nat.pow_add]
    congr 1
    omega
  have hshift := Nat.mul_le_mul_left (2 ^ (32 * n)) (Nat.succ_le_of_lt hby)
  rw [Nat.mul_succ] at hshift
  rw [bitsOfCmd, hpow]
  omega

/-- The three fields are read back from the string of a command (R65). -/
theorem cmdOfBits_bitsOfCmd (hc : c.wfAt n = true) : cmdOfBits n (bitsOfCmd n c) = c := by
  obtain ⟨hx, hy⟩ := cmd_wfAt_iff.1 hc
  have hbx : busOf c.x < 2 ^ (32 * n) := hx ▸ busOf_lt c.x
  have hop : BitVec.ofNat 3 (bitsOfCmd n c) = c.op := by
    refine BitVec.eq_of_toNat_eq ?_
    rw [BitVec.toNat_ofNat, bitsOfCmd, Nat.add_mul_mod_self_left, Nat.mod_eq_of_lt c.op.isLt]
  have hxs : bitsOfCmd n c / 2 ^ 3 = busOf c.x + 2 ^ (32 * n) * busOf c.y := by
    rw [bitsOfCmd, Nat.add_mul_div_left _ _ (by decide), Nat.div_eq_of_lt c.op.isLt, Nat.zero_add]
  have hys : bitsOfCmd n c / 2 ^ (3 + 32 * n) = busOf c.y := by
    rw [Nat.pow_add, ← Nat.div_div_eq_div_mul, hxs, Nat.add_mul_div_left _ _ (Nat.two_pow_pos _),
      Nat.div_eq_of_lt hbx, Nat.zero_add]
  have hlx := lanesOf_busOf_add c.x (busOf c.y)
  have hly := lanesOf_busOf c.y
  rw [hx] at hlx
  rw [hy] at hly
  rw [cmdOfBits, hop, hxs, hys, hlx, hly]

/-- A string of `3 + 64n` bits is put together again from its three fields (R65). -/
theorem bitsOfCmd_cmdOfBits (hv : v < 2 ^ (3 + 64 * n)) : bitsOfCmd n (cmdOfBits n v) = v := by
  have hy : v / 2 ^ (3 + 32 * n) % 2 ^ (32 * n) = v / 2 ^ 3 / 2 ^ (32 * n) := by
    rw [Nat.div_div_eq_div_mul, ← Nat.pow_add]
    refine Nat.mod_eq_of_lt (Nat.div_lt_of_lt_mul ?_)
    rwa [← Nat.pow_add, show 3 + 32 * n + 32 * n = 3 + 64 * n by omega]
  simp only [bitsOfCmd, cmdOfBits, busOf_lanesOf, BitVec.toNat_ofNat]
  rw [hy, Nat.mod_add_div, Nat.mod_add_div]

theorem cmdOfBits_wfAt (n v : Nat) : (cmdOfBits n v).wfAt n = true := by
  simp [cmd_wfAt_iff, cmdOfBits]

end

/-- Settles O48: the string of a command fits, and command and instruction are read back from it. -/
theorem decodeOfEncodeIsTheInstruction : Obligations.DecodeOfEncodeIsTheInstruction := by
  intro n i hn hi
  have hc : i.toCmd.wfAt n = true := (toCmd_wfAt n i).trans hi
  rw [decodeString, encode, if_pos ((fitsCommand_iff hn).2 (bitsOfCmd_lt hc)),
    cmdOfBits_bitsOfCmd hc, decodeCmd_toCmd]

/-- Settles O49: the instruction of a string is what its three fields decode to. -/
theorem everyStringIsOneCommand : Obligations.EveryStringIsOneCommand := by
  intro n v hn
  refine ⟨fun hv => ⟨decodeCmd (cmdOfBits n v), ?_, ?_, ?_⟩, fun hv => ?_⟩
  · rw [decodeString, if_pos ((fitsCommand_iff hn).2 hv)]
  · rw [← toCmd_wfAt, toCmd_decodeCmd, cmdOfBits_wfAt]
  · rw [encode, toCmd_decodeCmd, bitsOfCmd_cmdOfBits hv]
  · rw [decodeString, if_neg (mt (fitsCommand_iff hn).1 hv.not_gt)]

end Sys2Proof
end

section
/-! PROOFS. What an operation reads of its operands, and the reserved operation values (spec/30_encoding.md
sections 2, 3 and 5). -/

namespace Sys2Proof.Machine

/-! ## Each lane and each tuple of a response from its own operands -/

section
variable {f : Word → Word → Word} {g : Word → Word} {h : Tuple → Tuple → Tuple}

/-- Lane `i` of the result is a function of lane `i` of the operands, also past the end (R67 a). -/
theorem elementwise2_getElem? (d i : Nat) (x y : Vec) :
    (elementwise2 f d x y)[i]? = Option.map₂ (lane2 f (d + i)) x[i]? y[i]? := by
  cases hx : x[i]? with
  | none => simp [List.getElem?_eq_none_iff.1 hx]
  | some a =>
    cases hy : y[i]? with
    | none => simp [List.getElem?_eq_none_iff.1 hy]
    | some b => exact elementwise2_lane hx hy

theorem elementwise1_getElem? (d i : Nat) (x : Vec) :
    (elementwise1 g d x)[i]? = x[i]?.map (lane1 g (d + i)) := by
  cases hx : x[i]? with
  | none => simpa using hx
  | some a => exact elementwise1_lane hx

theorem tupleAt_of_length_lt {x : Vec} (hx : x.length < 4) (k : Nat) : tupleAt x k = none := by
  match x, hx with
  | [], _ => rfl
  | [_], _ => rfl
  | [_, _], _ => rfl
  | [_, _, _], _ => rfl
  | _ :: _ :: _ :: _ :: _, hx => simp at hx; omega

/-- Tuple `k` of the result is a function of tuple `k` of the operands, also past the end (R67 c). -/
theorem tupleAt_tuplewise2 (d k : Nat) (x y : Vec) :
    tupleAt (tuplewise2 h d x y) k =
      Option.map₂ (tuple2 h (d + 4 * k)) (tupleAt x k) (tupleAt y k) := by
  fun_induction tuplewise2 h d x y generalizing k with
  | case1 d a0 a1 a2 a3 xs b0 b1 b2 b3 ys t ih =>
    cases k with
    | zero => rfl
    | succ k => rw [tupleAt, ih, tupleAt, tupleAt, Nat.mul_succ, Nat.add_assoc, Nat.add_comm 4]
  | case2 x d y hne =>
    have hshort : x.length < 4 ∨ y.length < 4 := by
      match x, y, hne with
      | _ :: _ :: _ :: _ :: _, _ :: _ :: _ :: _ :: _, hne =>
        exact (hne _ _ _ _ _ _ _ _ _ _ rfl rfl).elim
      | [], _, _ | [_], _, _ | [_, _], _, _ | [_, _, _], _, _ => simp
      | _, [], _ | _, [_], _ | _, [_, _], _ | _, [_, _, _], _ => simp
    rcases hshort with hx | hy
    · simp [tupleAt_of_length_lt hx, tupleAt]
    · simp [tupleAt_of_length_lt hy, tupleAt]

end

/-- Settles O26: lane by lane and tuple by tuple, for vectors of any lengths. -/
theorem lanesAndTuplesDoNotInteract : Obligations.LanesAndTuplesDoNotInteract := by
  intro x y x' y' s _ _ _ _
  refine ⟨fun op hop => ?_, _, _, rfl, rfl, fun k hx hy => ?_⟩
  · simp only [List.mem_cons, List.not_mem_nil, or_false] at hop
    have hlane2 (f : Word → Word → Word) (i : Nat) (hx : x[i]? = x'[i]?) (hy : y[i]? = y'[i]?) :
        (elementwise2 f s.draws x y)[i]? = (elementwise2 f s.draws x' y')[i]? := by
      rw [elementwise2_getElem?, elementwise2_getElem?, hx, hy]
    rcases hop with rfl | rfl | rfl | rfl
    · exact ⟨_, _, rfl, rfl, hlane2 adder⟩
    · exact ⟨_, _, rfl, rfl, hlane2 subtractor⟩
    · exact ⟨_, _, rfl, rfl, hlane2 multiplier⟩
    · exact ⟨_, _, rfl, rfl, fun i hx _ => by rw [elementwise1_getElem?, elementwise1_getElem?, hx]⟩
  · rw [tupleAt_tuplewise2, tupleAt_tuplewise2, hx, hy]

/-- Settles O25: the response of either does not name `y`. -/
theorem pow5AndSumIgnoreSecondOperand : Obligations.Pow5AndSumIgnoreSecondOperand :=
  fun _ _ _ _ => ⟨rfl, rfl⟩

/-! ## The reserved operation values -/

theorem decodeCmd_isOperation_of_reserved {c : Cmd} (hc : c.op = 6 ∨ c.op = 7) :
    (decodeCmd c).isOperation = false := by
  rcases hc with h | h <;> simp [decodeCmd, h, Instr.isOperation]

/-- An edge without reset, with a host that holds what it presents: Deliver and then Accept (R32). -/
theorem edge_of_no_reset {p : PortIn} {s : State} (hrst : p.rst = false)
    (hkeep : s.keepsCommand p = true) :
    edge p s = thenNext (deliverTo p s.drive) (State.acceptFrom p) := by
  simp [edge, hrst, hkeep]

/-- Settles O24: Accept does not read the operation value, and `exec` refuses it in Deliver. -/
theorem reservedOperationIsAcceptedThenRefused :
    Obligations.ReservedOperationIsAcceptedThenRefused := by
  intro c hc
  have hexec (s : State) : exec (decodeCmd c) s = .refused (.reservedOperation c.op) := by
    rw [exec_of_reserved (decodeCmd_isOperation_of_reserved hc), toCmd_decodeCmd]
  refine ⟨hexec, ?_, ?_⟩
  · rintro p s hrst hvalid rfl hready hkeep hcmd
    refine ⟨s.drive.acceptFrom p, ?_, by rw [acceptFrom_accepts hvalid hcmd]; rfl⟩
    rw [edge_of_no_reset hrst hkeep, deliverTo_of_not_ready hready]
    rfl
  · intro p s rest hrst hready hkeep hq hoffer
    rw [edge_of_no_reset hrst hkeep, deliverTo_of_offer hoffer hready hq, hexec]
    rfl

end Sys2Proof.Machine
end

section
/-! PROOFS. The primitives, and the field laws of the units (spec/40_primitives.md). -/

namespace Sys2Proof

open Machine

/-! ## The wide multiply -/

/-- Settles O1: the halves of a number below 2^64 are its remainder and quotient by 2^32. -/
theorem widemulGivesExactProduct : Obligations.WidemulGivesExactProduct := by
  intro x y
  obtain ⟨hlow, hhigh⟩ := widemul_toNat x y
  exact ⟨hlow, hhigh, by rw [hlow, hhigh, Nat.div_add_mod']⟩

/-! ## The final stage -/

section
variable {r : Word}

theorem canon_of_eq_m31 (hr : r.toNat = M31) : canon r = 0 :=
  BitVec.eq_of_toNat_eq (by rw [canon_toNat, if_pos hr]; rfl)

theorem canon_of_ne_m31 (hr : r.toNat ≠ M31) : canon r = r :=
  BitVec.eq_of_toNat_eq (by rw [canon_toNat, if_neg hr])

/-- On the range of `fold`, `canon` is the remainder modulo M31 (R92). -/
theorem canon_toNat_of_le (hr : r.toNat ≤ M31) : (canon r).toNat = r.toNat % M31 := by
  rw [canon_toNat]
  split
  · next h => rw [h, Nat.mod_self]
  · next h => rw [Nat.mod_eq_of_lt (by omega)]

/-- The mask keeps the low 31 bits (R69). -/
theorem and_m31Word_toNat (z : Word) : (z &&& m31Word).toNat = z.toNat % 2 ^ 31 := by
  rw [BitVec.toNat_and]
  exact Nat.and_two_pow_sub_one_eq_mod z.toNat 31

/-- The branch-free form on the integers: the carry out of bit 30 of `r + 1` is added in, and the mask
drops what passes bit 30 (R92). -/
theorem canonBranchFree_toNat (r : Word) :
    (canonBranchFree r).toNat = (r.toNat + (r.toNat + 1) % 2 ^ 32 / 2 ^ 31) % 2 ^ 31 := by
  rw [canonBranchFree, and_m31Word_toNat, BitVec.toNat_add, BitVec.toNat_ushiftRight, BitVec.toNat_add,
    Nat.shiftRight_eq_div_pow, Nat.mod_mod_of_dvd _ (by decide)]
  rfl

/-- The carry is 1 at M31 alone, where the mask then leaves 0 (R92). -/
theorem canonBranchFree_eq_canon (hr : r.toNat ≤ M31) : canonBranchFree r = canon r := by
  apply BitVec.eq_of_toNat_eq
  rw [canonBranchFree_toNat, canon_toNat]
  unfold M31 at *
  split <;> omega

end

/-- Settles O3: `canon` is the remainder modulo M31, so its word is canonical and keeps the residue. -/
theorem canonMapsM31ToZero : Obligations.CanonMapsM31ToZero := by
  intro r hr
  have hcanon := canon_toNat_of_le hr
  exact ⟨canon_of_eq_m31, canon_of_ne_m31, (represents_of_toNat hcanon).canonical,
    by rw [hcanon, Nat.mod_mod], canonBranchFree_eq_canon hr⟩

/-! ## The modular double -/

/-- Settles O5: the double represents twice the field element of its operand. -/
theorem doubleComputesTwice : Obligations.DoubleComputesTwice := by
  intro v hv
  have hdouble := (represents_self hv).double
  exact ⟨rfl, hdouble.eq_residue (by push_cast; rfl), hdouble.canonical⟩

/-! ## The field laws -/

theorem represents_one : Represents 1 1 := ⟨by decide, by simp⟩

/-- Two words that represent equal field elements are one word: a law of the field is a law of the
units, bit for bit (R95 point 7). -/
theorem Represents.eq_of_eq {w w' : Word} {a a' : ZMod M31} (h : Represents w a)
    (h' : Represents w' a') (ha : a = a') : w = w' :=
  h.unique (ha ▸ h')

/-- Settles O12: both sides of each law represent field elements that the same law of `ZMod M31`
identifies. -/
theorem baseFieldLawsHoldBitForBit : Obligations.BaseFieldLawsHoldBitForBit := by
  intro x y z hx hy hz
  have rx := represents_self hx
  have ry := represents_self hy
  have rz := represents_self hz
  refine ⟨?addComm, ?addAssoc, ?mulComm, ?mulAssoc, ?distrib, ?addZero, ?mulOne, ?subAdd⟩
  case addComm => exact (rx.adder ry).eq_of_eq (ry.adder rx) (add_comm _ _)
  case addAssoc =>
    exact ((rx.adder ry).adder rz).eq_of_eq (rx.adder (ry.adder rz)) (add_assoc _ _ _)
  case mulComm => exact (rx.multiplier ry).eq_of_eq (ry.multiplier rx) (mul_comm _ _)
  case mulAssoc =>
    exact ((rx.multiplier ry).multiplier rz).eq_of_eq (rx.multiplier (ry.multiplier rz))
      (mul_assoc _ _ _)
  case distrib =>
    exact ((rx.adder ry).multiplier rz).eq_of_eq ((rx.multiplier rz).adder (ry.multiplier rz))
      (add_mul _ _ _)
  case addZero => exact (rx.adder represents_zero).eq_of_eq rx (add_zero _)
  case mulOne => exact (rx.multiplier represents_one).eq_of_eq rx (mul_one _)
  case subAdd => exact ((rx.adder ry).subtractor ry).eq_of_eq rx (add_sub_cancel_right _ _)

end Sys2Proof
end

section
/-! PROOFS. The completion of an operation, and the instruction ADD (spec/41_adder.md). -/

namespace Sys2Proof

open Machine

/-! ## What the completion statements share -/

/-- An operation completes from every state: the host receives its response of NLANE words, and only the
index of free words moves besides (R66, R71). -/
theorem exec_completes {i : Instr} (hwf : i.wf = true) (hop : i.isOperation = true) (s : State) :
    exec i s = .next { s with received := s.received ++ [i.response s.draws],
                              draws := s.draws + (i.response s.draws).length } ∧
      (i.response s.draws).length = Config.nlane :=
  ⟨exec_of_isOperation hop s, response_length hwf hop s.draws⟩

/-- On a lane with canonical operands the result is the unit's word, whatever the other lanes hold (R67 a). -/
theorem elementwise2_lane_of_canonical {f : Word → Word → Word} {d i : Nat} {x y : Vec} {a b : Word}
    (hx : x[i]? = some a) (hy : y[i]? = some b) (ha : canonical a = true) (hb : canonical b = true) :
    (elementwise2 f d x y)[i]? = some (f a b) := by
  rw [elementwise2_lane hx hy, lane2, ha, hb]
  rfl

/-! ## ADD -/

/-- Settles O18: ADD completes as every operation does, and each canonical lane holds the adder's word. -/
theorem addCompletesWithModularSum : Obligations.AddCompletesWithModularSum := by
  intro x y s hwf
  obtain ⟨hexec, hlen⟩ := exec_completes hwf rfl s
  refine ⟨rfl, _, _, hexec, hlen, fun i a b hx hy ha hb => ?_⟩
  exact ⟨adder a b, elementwise2_lane_of_canonical hx hy ha hb, adder_toNat ha hb⟩

end Sys2Proof
end

section
/-! PROOFS. The instruction SUB (spec/42_subtractor.md). -/

namespace Sys2Proof

open Machine

/-- The two cases of the difference: the bias M31 is what the reduction takes off again when the
difference is not negative, and what is left of it keeps a negative one in range (R110). -/
theorem subtractor_toNat_cases {a b : Word} (ha : canonical a = true) (hb : canonical b = true) :
    (subtractor a b).toNat = if b.toNat ≤ a.toNat then a.toNat - b.toNat else a.toNat + M31 - b.toNat := by
  have hlt := canonical_iff.1 ha
  rw [subtractor_toNat ha hb]
  split
  · next hle => rw [Nat.sub_add_comm hle, Nat.add_mod_right, Nat.mod_eq_of_lt (by omega)]
  · next hnot => rw [Nat.mod_eq_of_lt (by omega)]

/-- Settles O19: SUB completes as every operation does, and each canonical lane holds the subtractor's word. -/
theorem subCompletesWithModularDifference : Obligations.SubCompletesWithModularDifference := by
  intro x y s hwf
  obtain ⟨hexec, hlen⟩ := exec_completes hwf rfl s
  refine ⟨rfl, _, _, hexec, hlen, fun i a b hx hy ha hb => ?_⟩
  exact ⟨subtractor a b, elementwise2_lane_of_canonical hx hy ha hb, subtractor_toNat_cases ha hb⟩

end Sys2Proof
end

section
/-! PROOFS. The instruction MUL (spec/43_multiplier.md). -/

namespace Sys2Proof

open Machine

/-- Settles O20: MUL completes as every operation does, and each canonical lane holds the multiplier's word. -/
theorem mulCompletesWithModularProduct : Obligations.MulCompletesWithModularProduct := by
  intro x y s hwf
  obtain ⟨hexec, hlen⟩ := exec_completes hwf rfl s
  refine ⟨rfl, _, _, hexec, hlen, fun i a b hx hy ha hb => ?_⟩
  exact ⟨multiplier a b, elementwise2_lane_of_canonical hx hy ha hb, multiplier_toNat ha hb⟩

end Sys2Proof
end

section
/-! PROOFS. The instruction POW5 (spec/44_power5.md). -/

namespace Sys2Proof

open Machine

/-- A word that represents a natural number holds its remainder modulo M31: the converse of
`represents_of_toNat`. -/
theorem Represents.toNat_eq_mod {w : Word} {n : Nat} (h : Represents w n) : w.toNat = n % M31 := by
  have hmod := (ZMod.natCast_eq_natCast_iff' _ _ _).1 h.value
  rwa [Nat.mod_eq_of_lt (canonical_iff.1 h.canonical)] at hmod

/-- The chain of three multipliers on the integers (R130, R131). -/
theorem power5_toNat {a : Word} (ha : canonical a = true) : (power5 a).toNat = a.toNat ^ 5 % M31 := by
  have hpow := (represents_self ha).power5
  refine Represents.toNat_eq_mod ?_
  rwa [val, Int.cast_natCast, ← Nat.cast_pow] at hpow

/-- Settles O21: POW5 completes as every operation does, and each canonical lane holds the chain's word. -/
theorem pow5CompletesWithFifthPower : Obligations.Pow5CompletesWithFifthPower := by
  intro x y s hwf
  obtain ⟨hexec, hlen⟩ := exec_completes hwf rfl s
  refine ⟨rfl, _, _, hexec, hlen, fun i a hx ha => ?_⟩
  exact ⟨power5 a, elementwise1_answers s.draws (fun _ => rfl) i a hx ha, power5_toNat ha⟩

end Sys2Proof
end

section
/-! PROOFS. The sum reduction tree and the instruction SUM (spec/45_sum_tree.md). -/

namespace Sys2Proof

open Machine

/-- Adding the words of a vector to an accumulator one after the other adds their field elements
(R140). -/
theorem represents_foldl_adder {x : Vec} {acc : Word} {a : ZMod M31} (hacc : Represents acc a)
    (hx : x.all canonical = true) : Represents (x.foldl adder acc) (a + fieldSum x) := by
  induction x generalizing acc a with
  | nil => simpa using hacc
  | cons w x ih =>
    simp only [List.all_cons, Bool.and_eq_true] at hx
    obtain ⟨hw, hx⟩ := hx
    simpa [val, add_assoc] using ih (hacc.adder (represents_self hw)) hx

/-- The left-to-right chain stands for the same field element as the tree (R140, R142). -/
theorem sumChain_represents {x : Vec} (hx : x.all canonical = true) :
    Represents (sumChain x) (fieldSum x) :=
  zero_add (fieldSum x) ▸ represents_foldl_adder represents_zero hx

/-- The tree and the left-to-right chain give the same word (R142). -/
theorem sumTree_eq_sumChain {x : Vec} (hx : x.all canonical = true) : sumTree x = sumChain x :=
  (sumTree_represents hx).unique (sumChain_represents hx)

/-- The unsigned integer sum of the words stands for their field element (R140). -/
theorem fieldSum_eq_natCast (x : Vec) : fieldSum x = ((x.map BitVec.toNat).sum : Nat) := by
  rw [fieldSum, Nat.cast_list_sum, List.map_map]
  rfl

/-- The tree of adders on the integers (R140, R141). -/
theorem sumTree_toNat {x : Vec} (hx : x.all canonical = true) :
    (sumTree x).toNat = (x.map BitVec.toNat).sum % M31 :=
  Represents.toNat_eq_mod (fieldSum_eq_natCast x ▸ sumTree_represents hx)

/-- On canonical words lane 0 of a reduction is the unit's word (R67 b). -/
theorem reduction_lane_zero_of_canonical {f : Vec → Word} {d : Nat} {x : Vec}
    (hx : x.all canonical = true) : (reduction f d x)[0]? = some (f x) := by
  simp [reduction, hx]

/-- Settles O22: SUM completes as every operation does, lane 0 holds the root of the tree, and the other
lanes are 0 whatever the operand holds. -/
theorem sumCompletesWithModularSum : Obligations.SumCompletesWithModularSum := by
  intro x y s hwf
  obtain ⟨hexec, hlen⟩ := exec_completes hwf rfl s
  obtain ⟨-, hzero⟩ := reduction_answers s.draws (sumTree_eq_sum (x := x))
  refine ⟨rfl, _, _, hexec, hlen, fun hx => ?_, fun i hpos hlt => hzero i hpos (hlen ▸ hlt)⟩
  exact ⟨sumTree x, reduction_lane_zero_of_canonical hx, sumTree_toNat hx, sumTree_eq_sumChain hx⟩

end Sys2Proof
end

section
/-! PROOFS. The extension multiplier and the instruction MULEXT (spec/46_ext_multiplier.md). -/

namespace Sys2Proof

open Machine

/-! ## The nodes of the extension multiplier -/

section
variable {x0 x1 y0 y1 : Word}

/-- Each node of the helper is the output of a unit on nodes before it, so canonical (R150, R157). -/
theorem complexNodes_canonical (hx0 : canonical x0 = true) (hx1 : canonical x1 = true)
    (hy0 : canonical y0 = true) (hy1 : canonical y1 = true) :
    let h := complexNodes x0 x1 y0 y1
    ∀ w ∈ [h.low, h.high, h.sx, h.sy, h.med, h.lh, h.out.re, h.out.im], canonical w = true := by
  have hlow := multiplier_canonical hx0 hy0
  have hhigh := multiplier_canonical hx1 hy1
  have hsx := adder_canonical hx0 hx1
  have hsy := adder_canonical hy0 hy1
  have hmed := multiplier_canonical hsx hsy
  have hlh := adder_canonical hlow hhigh
  have hre := subtractor_canonical hlow hhigh
  have him := subtractor_canonical hmed hlh
  simp only [List.forall_mem_cons]
  exact ⟨hlow, hhigh, hsx, hsy, hmed, hlh, hre, him, List.forall_mem_nil _⟩

theorem multiplyComplex_canonical (hx0 : canonical x0 = true) (hx1 : canonical x1 = true)
    (hy0 : canonical y0 = true) (hy1 : canonical y1 = true) :
    canonical (multiplyComplex x0 x1 y0 y1).re = true ∧
      canonical (multiplyComplex x0 x1 y0 y1).im = true :=
  have hnodes := complexNodes_canonical hx0 hx1 hy0 hy1
  ⟨hnodes _ (by simp [multiplyComplex]), hnodes _ (by simp [multiplyComplex])⟩

end

/-- Settles O15, along the dataflow: the sums of the operands feed the third helper, the helpers the
combine step, and each node is the output of a unit on canonical words. -/
theorem everyExtensionNodeIsCanonical : Obligations.EveryExtensionNodeIsCanonical := by
  intro a b ha hb
  have hz : (extNodes a b).z.canonical = true := extMultiplier_canonical ha hb
  obtain ⟨ha0, ha1, ha2, ha3⟩ := Tuple.canonical_iff.1 ha
  obtain ⟨hb0, hb1, hb2, hb3⟩ := Tuple.canonical_iff.1 hb
  have hsa0 := adder_canonical ha0 ha2
  have hsa1 := adder_canonical ha1 ha3
  have hsb0 := adder_canonical hb0 hb2
  have hsb1 := adder_canonical hb1 hb3
  obtain ⟨llRe, llIm⟩ := multiplyComplex_canonical ha0 ha1 hb0 hb1
  obtain ⟨rrRe, rrIm⟩ := multiplyComplex_canonical ha2 ha3 hb2 hb3
  obtain ⟨combRe, combIm⟩ := multiplyComplex_canonical hsa0 hsa1 hsb0 hsb1
  have ht0 := subtractor_canonical llRe rrRe
  have hd0 : canonical (double _) = true := adder_canonical rrIm rrIm
  have ht1 := subtractor_canonical llIm rrIm
  have hd1 : canonical (double _) = true := adder_canonical rrRe rrRe
  have hu2 := adder_canonical llRe rrRe
  have hu3 := adder_canonical llIm rrIm
  have hll := complexNodes_canonical ha0 ha1 hb0 hb1
  have hrr := complexNodes_canonical ha2 ha3 hb2 hb3
  have hcomb := complexNodes_canonical hsa0 hsa1 hsb0 hsb1
  refine ⟨?helpers, ?nodes, hz⟩
  case helpers =>
    exact List.forall_mem_cons.2
      ⟨hll, List.forall_mem_cons.2 ⟨hrr, List.forall_mem_singleton.2 hcomb⟩⟩
  case nodes =>
    simp only [List.forall_mem_cons]
    exact ⟨llRe, llIm, rrRe, rrIm, hsa0, hsa1, hsb0, hsb1, combRe, combIm, ht0, hd0, ht1, hd1, hu2,
      hu3, List.forall_mem_nil _⟩

/-! ## MULEXT -/

/-- A vector that reaches past lane `4k + 3` has a tuple `k` (R42). -/
theorem exists_tupleAt {v : Vec} {k : Nat} (hk : 4 * k + 3 < v.length) : ∃ t, tupleAt v k = some t :=
  ⟨⟨v[4 * k], v[4 * k + 1], v[4 * k + 2], v[4 * k + 3]⟩,
    (tupleIsFourContiguousLanes v k _).2 (by simp)⟩

theorem tuple2_of_canonical {f : Tuple → Tuple → Tuple} {d : Nat} {a b : Tuple}
    (ha : a.canonical = true) (hb : b.canonical = true) : tuple2 f d a b = f a b := by
  rw [tuple2, ha, hb]
  rfl

/-- Settles O23: MULEXT completes as every operation does, and where both operand tuples are canonical
the response has the unit's tuple, which is the closed form. -/
theorem mulextCompletesWithTupleProducts : Obligations.MulextCompletesWithTupleProducts := by
  intro x y s hwf
  obtain ⟨hexec, hlen⟩ := exec_completes hwf rfl s
  obtain ⟨hx, hy⟩ : x.length = Config.nlane ∧ y.length = Config.nlane := instr_wf_iff.1 hwf
  refine ⟨rfl, _, _, hexec, hlen, fun k hk => ?_⟩
  obtain ⟨a, ha⟩ : ∃ a, tupleAt x k = some a := exists_tupleAt (by omega)
  obtain ⟨b, hb⟩ : ∃ b, tupleAt y k = some b := exists_tupleAt (by omega)
  refine ⟨a, b, _, ha, hb, tuplewise2_tuple ha hb, fun hca hcb => ?_⟩
  rw [tuple2_of_canonical hca hcb, extMultiplier_eq_mulext hca hcb]

end Sys2Proof
end

section
/-! PROOFS. The stops of a step, and that no operand bits are one of them (spec/60_exceptions.md). -/

namespace Sys2Proof.Machine

/-! ## What a refusal says -/

section
variable {p : PortIn} {s : State} {r : Refusal}

theorem isOperation_eq_false_iff {i : Instr} :
    i.isOperation = false ↔ i.toCmd.op = 6 ∨ i.toCmd.op = 7 := by
  cases i <;> simp [Instr.isOperation, Instr.toCmd]

/-- `exec` refuses exactly the reserved operation values, each by its name (R72, R170). -/
theorem exec_refused_iff {i : Instr} :
    exec i s = .refused r ↔ i.isOperation = false ∧ r = .reservedOperation i.toCmd.op := by
  refine ⟨fun h => ?_, fun ⟨hop, hr⟩ => hr ▸ exec_of_reserved hop s⟩
  cases hop : i.isOperation with
  | true => cases h.symm.trans (exec_of_isOperation hop s)
  | false => exact ⟨rfl, Host.Outcome.refused.inj (h.symm.trans (exec_of_reserved hop s))⟩

/-- Deliver refuses only where the response to a reserved head is taken. -/
theorem deliverTo_refused (h : deliverTo p s = .refused r) :
    ∃ c, s.q.head? = some c ∧ (c.op = 6 ∨ c.op = 7) ∧ r = .reservedOperation c.op ∧
      p.rspReady = true := by
  rcases deliverTo_cases p s with ⟨-, hm⟩ | ⟨c, rest, hq, -, hready, hexec⟩
  · cases hm.symm.trans h
  · obtain ⟨hop, hr⟩ := exec_refused_iff.1 (hexec.symm.trans h)
    rw [isOperation_eq_false_iff, toCmd_decodeCmd] at hop
    rw [toCmd_decodeCmd] at hr
    exact ⟨c, by rw [hq]; rfl, hop, hr, hready⟩

theorem thenNext_refused {o : Outcome} {f : State → State} :
    thenNext o f = .refused r ↔ o = .refused r := by
  cases o <;> simp [thenNext]

/-- The ports do not keep the command that waits: it is withdrawn or changed (R32, U7). -/
theorem not_keepsCommand_iff : s.keepsCommand p = false ↔
    ∃ c, s.waiting = some c ∧ (p.cmdValid = false ∨ p.cmd ≠ c) := by
  rw [← Bool.not_eq_true, keepsCommand_iff]
  simp [Decidable.imp_iff_not_or]

/-- What a refused edge refused: the host's command, or Deliver. -/
theorem edge_refused (h : edge p s = .refused r) : p.rst = false ∧
    ((s.keepsCommand p = false ∧ r = .commandChanged) ∨
      (s.keepsCommand p = true ∧ deliverTo p s.drive = .refused r)) := by
  unfold edge at h
  split at h
  case isTrue => cases h
  case isFalse hrst =>
    refine ⟨Bool.eq_false_iff.2 hrst, ?_⟩
    split at h
    case isTrue hkeep => exact .inr ⟨hkeep, thenNext_refused.1 h⟩
    case isFalse hkeep =>
      exact .inl ⟨Bool.eq_false_iff.2 hkeep, (Host.Outcome.refused.inj h).symm⟩

/-- No outcome is a fault, since there are none (R170). -/
theorem outcome_next_or_refused (o : Outcome) : (∃ t, o = .next t) ∨ ∃ r, o = .refused r := by
  cases o with
  | next t => exact .inl ⟨t, rfl⟩
  | fault r => cases r
  | refused r => exact .inr ⟨r, rfl⟩

end

/-! ## The obligations on exceptions -/

/-- Settles O44: the host's command is the first refusal of an edge, Deliver the second. -/
theorem stepRefusesOnlyReservedOrChanged : Obligations.StepRefusesOnlyReservedOrChanged := by
  intro s r h
  obtain ⟨hrst, ⟨hkeep, hr⟩ | ⟨-, hdeliver⟩⟩ := edge_refused h
  · exact ⟨hrst, .inl ⟨hr, not_keepsCommand_iff.1 hkeep⟩⟩
  · exact ⟨hrst, .inr (deliverTo_refused (s := s.sampled.drive) hdeliver)⟩

/-- Settles O45: there is no fault, and O44 leaves no refusal. -/
theorem stepCompletesForEveryOperand : Obligations.StepCompletesForEveryOperand := by
  intro s hhost hqueue
  refine (outcome_next_or_refused (step s)).resolve_right fun ⟨r, h⟩ => ?_
  obtain ⟨hrst, ⟨-, hchanged⟩ | ⟨c, hc, hop, -⟩⟩ := stepRefusesOnlyReservedOrChanged s r h
  · have hnot : s.keepsCommand s.pins = false := not_keepsCommand_iff.2 hchanged
    simp [hrst, hnot] at hhost
  · have hoperation := hqueue c (List.mem_of_head? hc)
    rw [decodeCmd_isOperation_of_reserved hop] at hoperation
    cases hoperation

end Sys2Proof.Machine
end

section
/-! PROOFS. Reset, and the waits of a command that is held and of one at the head of the queue
(spec/70_reset_and_hazards.md sections 1 and 4). -/

namespace Sys2Proof.Machine

/-! ## Reset -/

/-- Settles O29: the whole step is `resetEdge`, of which each clause is a field. -/
theorem resetEdgeEmptiesTheCore : Obligations.ResetEdgeEmptiesTheCore := by
  intro s hrst
  have hstep : step s = .next s.sampled.resetEdge := by simp [step, edge, hrst]
  exact ⟨_, hstep, rfl, rfl, rfl, rfl, Nat.zero_le _, Nat.zero_le _, rfl, rfl⟩

/-- Settles O40: after reset the queue, the records, the inputs and the waiting command are empty, so
nothing is there to break an invariant. -/
theorem invariantsHoldAfterReset : Obligations.InvariantsHoldAfterReset :=
  ⟨⟨Nat.zero_le _, nofun, nofun⟩, ⟨nofun, nofun, nofun, nofun, nofun⟩, ⟨[], rfl, .nil⟩,
    ⟨nofun, nofun, nofun, nofun⟩⟩

/-! ## What Deliver and Accept leave of the waits -/

section
variable {p : PortIn} {s m : State}

@[simp] theorem acceptFrom_readyWait (p : PortIn) (s : State) :
    (s.acceptFrom p).readyWait = s.readyWait := by
  rcases acceptFrom_cases p s with ⟨_, _, h⟩ | ⟨_, _, h⟩ | ⟨_, h⟩ <;> rw [h]

@[simp] theorem acceptFrom_rspWait (p : PortIn) (s : State) :
    (s.acceptFrom p).rspWait = s.rspWait := by
  rcases acceptFrom_cases p s with ⟨_, _, h⟩ | ⟨_, _, h⟩ | ⟨_, h⟩ <;> rw [h]

/-- Deliver changes the queue, the offer and what the host has received, and nothing else (R30). -/
theorem deliverTo_frame (h : deliverTo p s = .next m) :
    m.cmdReady = s.cmdReady ∧ m.inputs = s.inputs ∧ m.waiting = s.waiting ∧ m.issued = s.issued ∧
      m.readyWait = s.readyWait ∧ m.rspWait = s.rspWait := by
  rcases deliverTo_next h with ⟨-, rfl⟩ | ⟨_, _, -, -, -, -, rfl⟩
  · exact ⟨rfl, rfl, rfl, rfl, rfl, rfl⟩
  · exact ⟨rfl, rfl, rfl, rfl, rfl, rfl⟩

/-- Deliver takes at most the head off the queue. -/
theorem deliverTo_q_suffix (h : deliverTo p s = .next m) : m.q <:+ s.q := by
  rcases deliverTo_next h with ⟨-, rfl⟩ | ⟨_, _, -, -, -, -, rfl⟩
  · exact List.suffix_rfl
  · exact List.tail_suffix s.q

/-- An offer that is taken shortens the queue (R30, R32). -/
theorem deliverTo_q_of_offer (hoffer : s.rspValid = true) (hready : p.rspReady = true)
    (h : deliverTo p s = .next m) : m.q = s.q.tail := by
  rcases deliverTo_next h with ⟨hno | hempty, rfl⟩ | ⟨_, _, -, -, -, -, rfl⟩
  · simp [hoffer, hready] at hno
  · simp [hempty]
  · rfl

end

section
variable {q : List Cmd} {s : State}

theorem deliverTo_of_no_offer (hno : s.rspValid = false) (p : PortIn) : deliverTo p s = .next s := by
  rcases deliverTo_cases p s with ⟨-, h⟩ | ⟨_, _, -, hvalid, -, -⟩
  · exact h
  · simp [hno] at hvalid

/-- The free wait of `cmd_ready` runs while there is room (R206). -/
theorem readyWaitNext_succ (hroom : q.length < Config.depth) (n ticks : Nat) :
    readyWaitNext q (n + 1) ticks = n := by
  simp [readyWaitNext, hasRoom_iff.2 hroom]

/-- Without room the free wait of `cmd_ready` stands still (R206). -/
theorem readyWaitNext_of_full (hfull : ¬ q.length < Config.depth) (w ticks : Nat) :
    readyWaitNext q w ticks = w := by
  simp [readyWaitNext, hasRoom_iff, hfull]

/-- The free wait of the head runs while it is not offered (R216). -/
theorem rspWaitNext_succ (hne : q ≠ []) (n ticks : Nat) : rspWaitNext q false (n + 1) ticks = n := by
  simp [rspWaitNext, hne]

end

/-! ## The head of the queue is offered, and answered -/

section
variable {s : State} {c : Cmd} {queue : List Cmd} {n : Nat}

/-- An edge on which the response to an operation at the head is taken. -/
theorem step_of_answer (hrst : s.pins.rst = false) (hkeep : s.keepsCommand s.pins = true)
    (hq : s.q = c :: queue) (hop : (decodeCmd c).isOperation = true)
    (hoffer : s.rspValid = true ∨ s.rspWait = 0) (hready : s.pins.rspReady = true) :
    step s = .next ((s.sampled.drive.popHead.respond ((decodeCmd c).response s.draws)).acceptFrom
      s.pins) := by
  rw [step_of_delivery hrst hkeep hq hoffer hready, exec_of_isOperation hop]
  rfl

/-- While the wait of the head runs, an edge is Accept alone, and the wait is one edge shorter. -/
theorem step_while_head_waits (hhead : s.q.head? = some c) (hvalid : s.rspValid = false)
    (hwait : s.rspWait = n + 1) (hrst : s.pins.rst = false) (hkeep : s.keepsCommand s.pins = true) :
    step s = .next (s.sampled.drive.acceptFrom s.pins) ∧
      (s.sampled.drive.acceptFrom s.pins).rspValid = false ∧
      (s.sampled.drive.acceptFrom s.pins).rspWait = n := by
  have hne : s.q ≠ [] := fun hnil => by simp [hnil] at hhead
  have hno : s.sampled.drive.rspValid = false := by simp [rspValidNow, hvalid, hwait]
  have hdeliver : deliverTo s.pins s.sampled.drive = .next s.sampled.drive :=
    deliverTo_of_no_offer hno s.pins
  refine ⟨?_, (acceptFrom_rspValid _ _).trans hno, ?_⟩
  · rw [step_of_no_reset hrst hkeep, hdeliver]
    rfl
  · simp [hvalid, hwait, rspWaitNext_succ hne]

/-- With no reset among the coming edges, the next one is none: the quiet host drives none (log 4). -/
theorem pins_rst_of_take (h : ∀ p ∈ s.inputs.take (n + 1), p.rst = false) : s.pins.rst = false := by
  unfold State.pins
  cases hinputs : s.inputs with
  | nil => cases hw : s.waiting <;> simp [quietPins]
  | cons p rest => exact h p (by simp [hinputs])

/-- The wait of the head runs out with it still at the head and nothing delivered, whatever the host
presents, unless the host breaks the hold rule (R216, log 6). -/
theorem run_until_head_is_offered (hhead : s.q.head? = some c) (hvalid : s.rspValid = false)
    (hwait : s.rspWait = n) (hinputs : ∀ p ∈ s.inputs.take n, p.rst = false) :
    Host.Core.run core n s = .refused .commandChanged ∨
      ∃ t : State, Host.Core.run core n s = .next t ∧ t.q.head? = some c ∧ t.rspWait = 0 ∧
        t.received = s.received := by
  induction n generalizing s with
  | zero => exact .inr ⟨s, run_zero s, hhead, hwait, rfl⟩
  | succ n ih =>
    have hrst := pins_rst_of_take hinputs
    cases hkeep : s.keepsCommand s.pins with
    | false =>
      obtain ⟨d, hd, hchanged⟩ := not_keepsCommand_iff.1 hkeep
      exact .inl (run_succ_of_refused n (changedCommandIsRefused s d hd hrst hchanged))
    | true =>
      obtain ⟨hstep, hvalid', hwait'⟩ := step_while_head_waits hhead hvalid hwait hrst hkeep
      have hinputs' : ∀ p ∈ (s.sampled.drive.acceptFrom s.pins).inputs.take n, p.rst = false :=
        fun p hp => hinputs p (by cases h : s.inputs <;> simp_all)
      rw [run_succ_of_next n hstep]
      simpa using ih (acceptFrom_head s.pins (s := s.sampled.drive) hhead) hvalid' hwait' hinputs'

/-- Settles O56: the wait of the head runs out, and then the edge that takes the offer answers it. -/
theorem headIsOfferedWhateverTheHostPresents :
    Obligations.HeadIsOfferedWhateverTheHostPresents := by
  intro s c queue hq hwf hop hvalid hinputs
  have hhead : s.q.head? = some c := by rw [hq]; rfl
  refine (run_until_head_is_offered hhead hvalid rfl hinputs).imp_right ?_
  rintro ⟨t, hrun, hhead', hwait, hreceived⟩
  obtain ⟨rest, hq'⟩ := List.head?_eq_some_iff.1 hhead'
  refine ⟨t, hrun, rspValidNow_iff.2 ⟨by simp [hq'], .inr hwait⟩, hhead', hreceived, ?_⟩
  intro hrst hready hkeep
  refine ⟨_, _, step_of_answer hrst hkeep hq' hop (.inr hwait) hready, ?_,
    response_answers ((decodeCmd_wf c).trans hwf) hop t.draws⟩
  rw [← hreceived]
  exact acceptFrom_received _ _

/-- The ports of a host that presents no command. -/
def silentPins (ready : Bool) : PortIn := ⟨false, false, 0, zeroVec, zeroVec, ready⟩

/-- With a host that presents nothing, the wait of the head runs out with the queue unchanged. -/
theorem run_while_host_is_silent {ready : List Bool} {rest : List PortIn}
    (hhead : s.q.head? = some c) (hvalid : s.rspValid = false) (hwaiting : s.waiting = none)
    (hready : ready.length = s.rspWait) (hinputs : s.inputs = ready.map silentPins ++ rest) :
    ∃ t : State, Host.Core.run core s.rspWait s = .next t ∧ t.q = s.q ∧ t.rspWait = 0 ∧
      t.received = s.received ∧ t.waiting = none ∧ t.inputs = rest := by
  induction ready generalizing s with
  | nil => exact ⟨s, by rw [← hready]; rfl, rfl, hready.symm, rfl, hwaiting, hinputs⟩
  | cons r ready ih =>
    have hpins : s.pins = silentPins r := by simp [State.pins, hinputs]
    have hrst : s.pins.rst = false := by rw [hpins]; rfl
    have hkeep : s.keepsCommand s.pins = true := keepsCommand_iff.2 (by simp [hwaiting])
    have hcmd : s.pins.cmdValid = false := by rw [hpins]; rfl
    obtain ⟨hstep, hvalid', hwait'⟩ := step_while_head_waits hhead hvalid hready.symm hrst hkeep
    rw [acceptFrom_without_valid hcmd] at hstep hvalid' hwait'
    obtain ⟨t, hrun, ht⟩ := ih (s := { s.sampled.drive with waiting := none }) hhead hvalid' rfl
      hwait'.symm (by simp [hinputs])
    rw [← hready, List.length_cons, run_succ_of_next _ hstep]
    exact ⟨t, by rwa [hwait'] at hrun, ht⟩

/-- Settles O47: the wait of the head runs out, and the host that then takes the offer is answered. -/
theorem acceptedCommandIsAnsweredInFiniteTime :
    Obligations.AcceptedCommandIsAnsweredInFiniteTime := by
  intro s c queue ready rest hq hwf hop hvalid hwaiting hready hinputs
  have hhead : s.q.head? = some c := by rw [hq]; rfl
  obtain ⟨t, hrun, hqt, hwait, hreceived, hwaitingt, hinputst⟩ :=
    run_while_host_is_silent hhead hvalid hwaiting hready hinputs
  have hpins : t.pins = takingPins := by simp [State.pins, hinputst]
  have hkeep : t.keepsCommand t.pins = true := keepsCommand_iff.2 (by simp [hwaitingt])
  have hq' : t.q = c :: queue := hqt.trans hq
  have hstep := step_of_answer (by rw [hpins]; rfl) hkeep hq' hop (.inr hwait) (by rw [hpins]; rfl)
  rw [acceptFrom_without_valid (by rw [hpins]; rfl)] at hstep
  refine ⟨t, _, _, hrun, rspValidNow_iff.2 ⟨by simp [hq'], .inr hwait⟩, hqt, hreceived, hstep, ?_, ?_,
    response_answers ((decodeCmd_wf c).trans hwf) hop t.draws⟩
  · simp [hq']
  · simp [hreceived]

end

/-! ## A command that the host holds is accepted -/

/-- The ports of a host that presents `c` and takes any response. -/
def holdingPins (c : Cmd) : PortIn := ⟨false, true, c.op, c.x, c.y, true⟩

/-- The host holds `c` and takes every response for the next `n` edges, and the queue is one that the
CORE can answer. -/
structure State.Holding (c : Cmd) (n : Nat) (s : State) : Prop where
  inputs : List.replicate n (holdingPins c) <+: s.inputs
  waiting : s.waiting = none ∨ s.waiting = some c
  operations : ∀ d ∈ s.q, (decodeCmd d).isOperation = true
  bound : s.q.length ≤ Config.depth

/-- How many edges a held command may still wait: until the head of a full queue is answered, and then
until `cmd_ready` rises (R206, R216). -/
def State.acceptWait (s : State) : Nat :=
  s.readyWait + if s.q.length < Config.depth then 0 else s.rspWait + 1

section
variable {p : PortIn} {s m : State} {c : Cmd} {n : Nat}

theorem State.acceptWait_of_room (hroom : s.q.length < Config.depth) : s.acceptWait = s.readyWait := by
  simp [State.acceptWait, hroom]

theorem State.acceptWait_of_full (hfull : ¬ s.q.length < Config.depth) :
    s.acceptWait = s.readyWait + s.rspWait + 1 := by
  simp [State.acceptWait, hfull, Nat.add_assoc]

theorem State.acceptWait_le (s : State) : s.acceptWait ≤ s.rspWait + s.readyWait + 1 := by
  unfold State.acceptWait
  split <;> omega

/-- With room and without `cmd_ready`, `cmd_ready` waits one edge less (R206). -/
theorem deliverTo_acceptWait_lt_of_room (hroom : s.q.length < Config.depth)
    (hnot : cmdReadyNow s.q s.readyWait = false) (hm : deliverTo p s.sampled.drive = .next m) :
    m.acceptWait < s.acceptWait := by
  obtain ⟨-, -, -, -, hreadyWait, -⟩ := deliverTo_frame hm
  have hlength : m.q.length ≤ s.q.length := (deliverTo_q_suffix hm).length_le
  obtain ⟨w, hw⟩ := Nat.exists_eq_succ_of_ne_zero fun hzero =>
    Bool.eq_false_iff.1 hnot (cmdReadyNow_iff.2 ⟨hzero, hroom⟩)
  have hnext : m.readyWait = w := by simpa [hw, readyWaitNext_succ hroom] using hreadyWait
  rw [State.acceptWait_of_room hroom, State.acceptWait_of_room (hlength.trans_lt hroom)]
  omega

/-- The head of a full queue makes room when its response is taken, and waits one edge less until it is
offered (R216); `cmd_ready` does not wait meanwhile. -/
theorem deliverTo_acceptWait_lt_of_full (hready : p.rspReady = true)
    (hbound : s.q.length ≤ Config.depth) (hfull : ¬ s.q.length < Config.depth)
    (hm : deliverTo p s.sampled.drive = .next m) : m.acceptWait < s.acceptWait := by
  obtain ⟨-, -, -, -, hreadyWait, hrspWait⟩ := deliverTo_frame hm
  have hstay : m.readyWait = s.readyWait := by
    simpa [readyWaitNext_of_full hfull] using hreadyWait
  have hne : s.q ≠ [] := fun hnil => hfull (by simp [hnil, Config.depth_pos])
  rw [State.acceptWait_of_full hfull]
  cases hoffer : s.sampled.drive.rspValid with
  | true =>
    have hpos := List.length_pos_iff.2 hne
    have htail : m.q.length = s.q.length - 1 := by
      simp [deliverTo_q_of_offer hoffer hready hm]
    rw [State.acceptWait_of_room (by omega)]
    omega
  | false =>
    have hno : ¬ (s.rspValid = true ∨ s.rspWait = 0) := fun hyes =>
      Bool.eq_false_iff.1 hoffer (rspValidNow_iff.2 ⟨hne, hyes⟩)
    have hvalid : s.rspValid = false := Bool.eq_false_iff.2 fun hv => hno (.inl hv)
    obtain ⟨w, hw⟩ := Nat.exists_eq_succ_of_ne_zero fun hzero => hno (.inr hzero)
    have hnext : m.rspWait = w := by simpa [hvalid, hw, rspWaitNext_succ hne] using hrspWait
    have := m.acceptWait_le
    omega

namespace State.Holding

theorem pins (h : s.Holding c (n + 1)) : s.pins = holdingPins c := by
  obtain ⟨rest, hinputs⟩ := h.inputs
  simp [State.pins, ← hinputs, List.replicate_succ]

theorem tail_inputs (h : s.Holding c (n + 1)) :
    List.replicate n (holdingPins c) <+: s.inputs.tail := by
  obtain ⟨rest, hinputs⟩ := h.inputs
  exact ⟨rest, by simp [← hinputs, List.replicate_succ]⟩

theorem keepsCommand (h : s.Holding c (n + 1)) : s.keepsCommand s.pins = true := by
  rw [keepsCommand_iff, h.pins]
  intro d hd
  rcases h.waiting with hw | hw
  · simp [hw] at hd
  · exact ⟨rfl, Option.some.inj (hw.symm.trans hd)⟩

/-- Every edge of a holding host goes on: Deliver, perhaps, and then Accept of `c`, perhaps (R182). -/
theorem step_next (h : s.Holding c (n + 1)) :
    ∃ m, deliverTo (holdingPins c) s.sampled.drive = .next m ∧
      step s = .next (m.acceptFrom (holdingPins c)) := by
  obtain ⟨t, ht⟩ := stepCompletesForEveryOperand s (.inr h.keepsCommand) h.operations
  rcases step_cases ht with ⟨hrst, -⟩ | ⟨-, -, m, hm, rfl⟩
  · rw [h.pins] at hrst
    cases hrst
  · rw [h.pins] at hm ht
    exact ⟨m, hm, ht⟩

/-- On an edge with `cmd_ready = 1` the held command is accepted. -/
theorem step_accepts (h : s.Holding c (n + 1)) (hready : cmdReadyNow s.q s.readyWait = true) :
    ∃ u, step s = .next u ∧ u.issued = s.issued ++ [c] := by
  obtain ⟨m, hm, hstep⟩ := h.step_next
  obtain ⟨hcmd, -, -, hissued, -, -⟩ := deliverTo_frame hm
  refine ⟨_, hstep, ?_⟩
  rw [acceptFrom_accepts rfl (hcmd.trans hready), hissued]
  rfl

/-- On an edge without `cmd_ready` the held command waits, and is nearer to its acceptance. -/
theorem step_waits (h : s.Holding c (n + 1)) (hnot : cmdReadyNow s.q s.readyWait = false) :
    ∃ t, step s = .next t ∧ t.Holding c n ∧ t.issued = s.issued ∧ t.acceptWait < s.acceptWait := by
  obtain ⟨m, hm, hstep⟩ := h.step_next
  obtain ⟨hcmd, hinputs, -, hissued, -, -⟩ := deliverTo_frame hm
  have hsuffix : m.q <:+ s.q := deliverTo_q_suffix (s := s.sampled.drive) hm
  rw [acceptFrom_waits rfl (hcmd.trans hnot)] at hstep
  have hlt : m.acceptWait < s.acceptWait := by
    by_cases hroom : s.q.length < Config.depth
    · exact deliverTo_acceptWait_lt_of_room hroom hnot hm
    · exact deliverTo_acceptWait_lt_of_full rfl h.bound hroom hm
  refine ⟨_, hstep, ⟨?_, .inr rfl, ?_, ?_⟩, hissued, hlt⟩
  · exact hinputs ▸ h.tail_inputs
  · exact fun d hd => h.operations d (hsuffix.subset hd)
  · exact hsuffix.length_le.trans h.bound

/-- A command held for longer than its wait is accepted, and nothing before it. -/
theorem accepted (h : s.Holding c n) (hwait : s.acceptWait < n) :
    ∃ k < n, ∃ t u, Host.Core.run core k s = .next t ∧ step t = .next u ∧ t.issued = s.issued ∧
      u.issued = s.issued ++ [c] := by
  induction n generalizing s with
  | zero => exact absurd hwait (Nat.not_lt_zero _)
  | succ n ih =>
    cases hready : cmdReadyNow s.q s.readyWait with
    | true =>
      obtain ⟨u, hstep, hissued⟩ := h.step_accepts hready
      exact ⟨0, n.succ_pos, s, u, run_zero s, hstep, rfl, hissued⟩
    | false =>
      obtain ⟨s', hstep, h', hissued, hlt⟩ := h.step_waits hready
      obtain ⟨k, hk, t, u, hrun, hu, ht, hlast⟩ := ih h' (by omega)
      rw [← run_succ_of_next k hstep] at hrun
      exact ⟨k + 1, by omega, t, u, hrun, hu, ht.trans hissued, hissued ▸ hlast⟩

end State.Holding

end

/-- Settles O46: the wait of a held command is within the bound, and shrinks on every edge that does not
accept it. -/
theorem heldCommandIsAcceptedInFiniteTime : Obligations.HeldCommandIsAcceptedInFiniteTime := by
  intro s c rest hbound hops hwaiting hinputs
  have hold : s.Holding c (s.rspWait + s.readyWait + 2) :=
    ⟨⟨rest, hinputs.symm⟩, hwaiting, hops, hbound⟩
  exact hold.accepted (Nat.lt_succ_of_le s.acceptWait_le)

end Sys2Proof.Machine
end

section
/-! PROOFS. The fold, and the units of one or two words against their value functions
(spec/40_primitives.md to 44_power5.md). -/

namespace Sys2Proof

open Machine

/-! ## The fold -/

/-- Settles O2: the fold adds bit 31 to the low 31 bits, and each range of R91 fixes both. -/
theorem foldReachesClosedRange : Obligations.FoldReachesClosedRange := by
  intro z
  have hfold := fold_toNat z
  have hz := z.isLt
  refine ⟨?residue, fun hlt => BitVec.eq_of_toNat_eq ?below, ?atM31, ?above, ?last, ?allOnes⟩
  all_goals unfold M31 at *; omega

/-! ## The units of two words -/

/-- Settles O4. -/
theorem adderComputesModularSum : Obligations.AdderComputesModularSum :=
  fun _ _ hx hy => ⟨adder_eq_add hx hy, adder_canonical hx hy⟩

/-- Settles O6: equal operands represent the difference 0. -/
theorem subtractorComputesModularDifference : Obligations.SubtractorComputesModularDifference := by
  intro x y hx hy
  have rx := represents_self hx
  exact ⟨subtractor_eq_sub hx hy, subtractor_canonical hx hy,
    (rx.subtractor rx).eq_of_eq represents_zero (sub_self _)⟩

/-- Settles O7. -/
theorem multiplierSumFitsAndAvoidsM31 : Obligations.MultiplierSumFitsAndAvoidsM31 :=
  fun _ _ hx hy => ⟨firstFold_toNat hx hy, firstFold_le hx hy, firstFold_ne_m31 hx hy⟩

/-- Settles O8. -/
theorem multiplierComputesModularProduct : Obligations.MultiplierComputesModularProduct :=
  fun _ _ hx hy => ⟨multiplier_eq_mul hx hy, multiplier_canonical hx hy⟩

/-! ## Chains of multipliers -/

/-- Settles O9: both schedules represent the fifth power. -/
theorem power5ComputesFifthPower : Obligations.Power5ComputesFifthPower := by
  intro x hx
  have rx := represents_self hx
  have rsquare := rx.multiplier rx
  have rother := (rsquare.multiplier rsquare).multiplier rx
  exact ⟨power5_eq_pow5 hx, power5_canonical hx, rx.power5.eq_of_eq rother (by ring)⟩

/-- Squaring `n` times raises to the power `2^n`. -/
theorem Represents.iterate_square {x : Word} {a : ZMod M31} (hx : Represents x a) (n : Nat) :
    Represents ((fun q => Machine.multiplier q q)^[n] x) (a ^ 2 ^ n) := by
  induction n with
  | zero => simpa using hx
  | succ n ih =>
    rw [Function.iterate_succ_apply', pow_succ 2, pow_mul, sq]
    exact ih.multiplier ih

/-- Settles O13: `2^31` is `M31 + 1`, and the power M31 of a field element is itself (G1). -/
theorem thirtyOneSquaringsGiveTheSquare : Obligations.ThirtyOneSquaringsGiveTheSquare := by
  intro x hx
  have rx := represents_self hx
  have := Fact.mk m31_prime
  have hexp : 2 ^ 31 = M31 + 1 := rfl
  refine (rx.iterate_square 31).eq_of_eq (rx.multiplier rx) ?_
  rw [hexp, pow_succ, ZMod.pow_card]

end Sys2Proof
end

section
/-! PROOFS. The sum reduction tree on whole arrays and on their cuts (spec/45_sum_tree.md). -/

namespace Sys2Proof

open Machine

/-! ## The sum of a vector in the field -/

section
variable {x y : Vec}

@[simp] theorem fieldSum_append (x y : Vec) : fieldSum (x ++ y) = fieldSum x + fieldSum y := by
  simp [fieldSum]

/-- Zero lanes add nothing (R144). -/
@[simp] theorem fieldSum_replicate_zero (m : Nat) : fieldSum (List.replicate m 0) = 0 := by
  simp [fieldSum]

/-- The order of the lanes does not matter (R142). -/
theorem fieldSum_perm (h : x.Perm y) : fieldSum x = fieldSum y := (h.map _).sum_eq

/-- Summing each vector first, and then the sums, is summing all their words (R145). -/
theorem fieldSum_map_sumTree {vs : List Vec} (hvs : ∀ v ∈ vs, v.all canonical = true) :
    fieldSum (vs.map sumTree) = fieldSum vs.flatten := by
  induction vs with
  | nil => rfl
  | cons v vs ih =>
    obtain ⟨hv, hvs⟩ := List.forall_mem_cons.1 hvs
    simp [(sumTree_represents hv).value, ih hvs]

theorem replicate_zero_canonical (m : Nat) : (List.replicate m (0 : Word)).all canonical = true := by
  have hzero : canonical 0#32 = true := represents_zero.canonical
  simp [hzero]

end

/-! ## The tree -/

/-- Settles O10. -/
theorem sumTreeEqualsChainAndSum : Obligations.SumTreeEqualsChainAndSum := fun _ hx =>
  ⟨sumTree_eq_sumChain hx, sumTree_eq_sum hx, (sumTree_represents hx).canonical⟩

/-- Settles O11: both vectors add up to the same field element. -/
theorem sumIgnoresLaneOrderAndZeros : Obligations.SumIgnoresLaneOrderAndZeros := by
  intro x y m hx hperm
  have hy : y.all canonical = true := by
    rw [← hperm.all_eq, List.all_append, hx, replicate_zero_canonical]
    rfl
  refine (sumTree_represents hy).eq_of_eq (sumTree_represents hx) ?_
  rw [← fieldSum_perm hperm, fieldSum_append, fieldSum_replicate_zero, add_zero]

/-- Settles O54: the cuts hold the words of the array and zeros, and the tree over their sums adds up
them all. -/
theorem chunkedSumEqualsWholeSum : Obligations.ChunkedSumEqualsWholeSum := by
  intro n a hn ha
  obtain ⟨m, -, hflat⟩ := cut_flatten 0 a hn
  have hcuts : (cut n 0 a).flatten.all canonical = true := by
    rw [hflat, List.all_append, ha, replicate_zero_canonical]
    rfl
  have heach : ∀ v ∈ cut n 0 a, v.all canonical = true := by simpa [List.all_flatten] using hcuts
  have hsums : ((cut n 0 a).map sumTree).all canonical = true := by
    rw [List.all_map, List.all_eq_true]
    exact fun v hv => (sumTree_represents (heach v hv)).canonical
  refine (sumTree_represents hsums).eq_residue ?_
  rw [fieldSum_map_sumTree heach, hflat, fieldSum_append, fieldSum_replicate_zero, add_zero,
    fieldSum_eq_cast]

end Sys2Proof
end

section
/-! PROOFS. The extension multiplier as the multiplication of a tower of two quadratic algebras
(spec/30_encoding.md R63, spec/46_ext_multiplier.md). -/

namespace Sys2Proof

open Machine

/-! ## The helper and the closed form -/

/-- Settles O14: the helper represents the complex product, which is symmetric. -/
theorem helperComputesComplexProduct : Obligations.HelperComputesComplexProduct := by
  intro x0 x1 y0 y1 hx0 hx1 hy0 hy1
  have rx0 := represents_self hx0
  have rx1 := represents_self hx1
  have ry0 := represents_self hy0
  have ry1 := represents_self hy1
  obtain ⟨hre, him⟩ := rx0.multiplyComplex rx1 ry0 ry1
  obtain ⟨hre', him'⟩ := ry0.multiplyComplex ry1 rx0 rx1
  refine ⟨(Pair.mk.injEq ..).mpr ⟨hre.eq_residue ?_, him.eq_residue ?_⟩,
    (Pair.mk.injEq ..).mpr ⟨hre.eq_of_eq hre' ?_, him.eq_of_eq him' ?_⟩⟩
  all_goals push_cast; ring

/-- Settles O16. -/
theorem extensionMultiplierMatchesClosedForm : Obligations.ExtensionMultiplierMatchesClosedForm :=
  fun _ _ ha hb => extMultiplier_eq_mulext ha hb

/-! ## The tower -/

theorem represents_residue_of_cast {v : Int} {a : ZMod M31} (h : (v : ZMod M31) = a) :
    Represents (residue v) a :=
  h ▸ represents_residue v

/-- The inner complex numbers over the field: `i² = −1` (R63). -/
abbrev InnerComplex := QuadraticAlgebra (ZMod M31) (-1) 0

/-- The degree-4 extension over the inner complex numbers: `u² = γ = −1 − 2i` (R63). A commutative ring,
as every quadratic algebra over one is. -/
abbrev Tower := QuadraticAlgebra InnerComplex ⟨-1, -2⟩ 0

/-- `t` is the canonical tuple of the element `z` of the tower, `(a0 + a1·i) + (a2 + a3·i)·u` (R62,
R63). -/
structure RepresentsTuple (t : Tuple) (z : Tower) : Prop where
  a0 : Represents t.a0 z.re.re
  a1 : Represents t.a1 z.re.im
  a2 : Represents t.a2 z.im.re
  a3 : Represents t.a3 z.im.im

/-- The element of the tower that a tuple spells. -/
def Tuple.toTower (t : Tuple) : Tower :=
  ⟨⟨t.a0.toNat, t.a1.toNat⟩, ⟨t.a2.toNat, t.a3.toNat⟩⟩

theorem representsTuple_self {t : Tuple} (h : t.canonical = true) : RepresentsTuple t t.toTower :=
  have ⟨h0, h1, h2, h3⟩ := Tuple.canonical_iff.1 h
  ⟨⟨h0, rfl⟩, ⟨h1, rfl⟩, ⟨h2, rfl⟩, ⟨h3, rfl⟩⟩

theorem representsTuple_zero : RepresentsTuple ⟨0, 0, 0, 0⟩ 0 :=
  ⟨represents_zero, represents_zero, represents_zero, represents_zero⟩

theorem representsTuple_one : RepresentsTuple ⟨1, 0, 0, 0⟩ 1 :=
  ⟨represents_one, represents_zero, represents_zero, represents_zero⟩

/-- A tuple with upper half zero is an inner complex number (R158 e). -/
theorem representsTuple_inner {w0 w1 : Word} {a0 a1 : ZMod M31} (h0 : Represents w0 a0)
    (h1 : Represents w1 a1) : RepresentsTuple ⟨w0, w1, 0, 0⟩ (.C ⟨a0, a1⟩) :=
  ⟨h0, h1, represents_zero, represents_zero⟩

namespace RepresentsTuple
variable {s t : Tuple} {y z : Tower}

theorem canonical (h : RepresentsTuple t z) : t.canonical = true :=
  Tuple.canonical_iff.2 ⟨h.a0.canonical, h.a1.canonical, h.a2.canonical, h.a3.canonical⟩

/-- Two tuples that represent equal elements are one tuple: a law of the tower is a law of the units,
bit for bit. -/
theorem eq_of_eq (hs : RepresentsTuple s y) (ht : RepresentsTuple t z) (h : y = z) : s = t := by
  subst h
  exact (Tuple.mk.injEq ..).mpr ⟨hs.a0.unique ht.a0, hs.a1.unique ht.a1, hs.a2.unique ht.a2,
    hs.a3.unique ht.a3⟩

theorem map2_adder (hs : RepresentsTuple s y) (ht : RepresentsTuple t z) :
    RepresentsTuple (s.map2 adder t) (y + z) :=
  ⟨hs.a0.adder ht.a0, hs.a1.adder ht.a1, hs.a2.adder ht.a2, hs.a3.adder ht.a3⟩

theorem map2_subtractor (hs : RepresentsTuple s y) (ht : RepresentsTuple t z) :
    RepresentsTuple (s.map2 subtractor t) (y - z) :=
  ⟨hs.a0.subtractor ht.a0, hs.a1.subtractor ht.a1, hs.a2.subtractor ht.a2, hs.a3.subtractor ht.a3⟩

/-- A tuple represents the element it spells, and no other. -/
theorem toTower_eq (h : RepresentsTuple t z) : t.toTower = z :=
  QuadraticAlgebra.ext (QuadraticAlgebra.ext h.a0.value h.a1.value)
    (QuadraticAlgebra.ext h.a2.value h.a3.value)

/-- The unit multiplies in the tower: the closed form of R154 is the product in the algebra of R63. -/
theorem extMultiplier (hs : RepresentsTuple s y) (ht : RepresentsTuple t z) :
    RepresentsTuple (extMultiplier s t) (y * z) := by
  rw [extMultiplier_eq_mulext hs.canonical ht.canonical, ← hs.toTower_eq, ← ht.toTower_eq]
  refine ⟨represents_residue_of_cast ?_, represents_residue_of_cast ?_,
    represents_residue_of_cast ?_, represents_residue_of_cast ?_⟩
  all_goals simp [Tuple.toTower, val]; ring

end RepresentsTuple

/-- Settles O17: both sides of each law represent elements that the same law of the tower identifies;
inner-complex numbers are those with upper half 0. -/
theorem extensionRingLawsHoldBitForBit : Obligations.ExtensionRingLawsHoldBitForBit := by
  intro a b c ha hb hc
  have ra := representsTuple_self ha
  have rb := representsTuple_self hb
  have rc := representsTuple_self hc
  refine ⟨?oneMul, ?zeroMul, ?comm, ?assoc, ?mulAdd, ?mulSub, ?inner⟩
  case oneMul => exact (representsTuple_one.extMultiplier rb).eq_of_eq rb (one_mul _)
  case zeroMul =>
    exact (representsTuple_zero.extMultiplier rb).eq_of_eq representsTuple_zero (zero_mul _)
  case comm => exact (ra.extMultiplier rb).eq_of_eq (rb.extMultiplier ra) (mul_comm _ _)
  case assoc =>
    exact ((ra.extMultiplier rb).extMultiplier rc).eq_of_eq
      (ra.extMultiplier (rb.extMultiplier rc)) (mul_assoc _ _ _)
  case mulAdd =>
    exact (ra.extMultiplier (rb.map2_adder rc)).eq_of_eq
      ((ra.extMultiplier rb).map2_adder (ra.extMultiplier rc)) (mul_add _ _ _)
  case mulSub =>
    exact (ra.extMultiplier (rb.map2_subtractor rc)).eq_of_eq
      ((ra.extMultiplier rb).map2_subtractor (ra.extMultiplier rc)) (mul_sub _ _ _)
  case inner =>
    have hinner := (representsTuple_inner ra.a0 ra.a1).extMultiplier
      (representsTuple_inner rb.a0 rb.a1)
    obtain ⟨hre, him⟩ := ra.a0.multiplyComplex ra.a1 rb.a0 rb.a1
    refine hinner.eq_of_eq (representsTuple_inner hre him) ?_
    rw [← QuadraticAlgebra.C_mul, QuadraticAlgebra.mk_mul_mk]
    congr 2 <;> ring

end Sys2Proof
end

section
/-! PROOFS. Command strings written out in the spec (spec/95_test_vectors.md section 3). -/

namespace Sys2Proof

/-- Settles O50: each string is cut at its fields and decoded, by computation. -/
theorem writtenOutCommandStringsDecode : Obligations.WrittenOutCommandStringsDecode :=
  ⟨rfl, rfl, rfl, rfl, rfl, rfl⟩

end Sys2Proof
end
